-- ==== Sys2Proof/Word.lean ====
section
/-! DEFINITION. The word types of the block (spec 00_scope.md R5, R7, 30_encoding.md R71). As R7 says, every value
of the state is unsigned, bit 0 is the least significant, and no operation on words is a signed one: `v[hi:lo]` is
`v.extractLsb' lo (hi - lo + 1)`, `+` on words is reduced modulo 2^32 where the rules say so, and exact integers are `Nat`,
with `/` for `div`. -/

namespace Sys2Proof

/-- A waveform sample, a table index, a duty value or a byte of a command stream: 8 bits (R5, R50). -/
abbrev Byte := BitVec 8

/-- A phase accumulator, an increment, the countdown or an operand: 32 bits unsigned (R5, R6, R72). -/
abbrev Word := BitVec 32

/-- A command or event word: 64 bits (R71). -/
abbrev CmdWord := BitVec 64

end Sys2Proof
end

