-- ==== Sys2Proof/Config.lean ====
section
/-! DEFINITION. The configuration (spec 00_scope.md R6, 10_state.md R41): parameters the source leaves open and the
free value of the duty registers. None of the constants has a body, so no proof can see a value of theirs. -/

namespace Sys2Proof

/-- `FP_FORMAT`: the format in which the converter evaluates (R6, D12). -/
inductive FpFormat where
  | binary32
  | binary64
  deriving DecidableEq, Repr, Inhabited

/-- An IEEE 754 value. `fin neg units` is the finite value `(-1)^neg * units * u`, where `u` is the least positive
subnormal of the format (2^-149 in binary32, 2^-1074 in binary64): every finite value of a format is a whole
number of those units, and `fin true 0` is minus zero. There is one NaN, without sign or payload: DESIGN CHOICE (log 23),
safe. -/
inductive Fp where
  | nan
  | inf (neg : Bool)
  | fin (neg : Bool) (units : Nat)
  deriving DecidableEq, Repr, Inhabited

/-- The parameters the converter and the countdown read (R6). -/
structure Params where
  /-- `CARRIER_RATE`, ticks per second. -/
  carrierRate : Nat
  /-- `FP_FORMAT`. -/
  fmt : FpFormat
  /-- `CORRECTION_FACTOR`, a value of `fmt`. -/
  correctionFactor : Fp
  /-- `BASE_FREQ_HZ`, a value of `fmt`. -/
  baseFreqHz : Fp
  deriving DecidableEq, Repr, Inhabited

/-- Any parameters at all; the machine uses `Config.params` (Machine/Converter.lean), which is this when it meets the
constraints of R6 and R107. DESIGN CHOICE (log 7), safe. -/
opaque Config.rawParams : Params

/-- `SINE_TABLE` (R6, R50, R101): the 256 entries of the sine ROM. No property of the values is assumed. -/
opaque Config.sineTable : Byte → Byte

/-- `IRQ_PRIORITY` (R6, R205, D20): configured by INIT, read by no rule. -/
opaque Config.irqPriority : Nat

/-- `PWM_PERIOD` in timer counts (R6, R115, D20): read by no rule. -/
opaque Config.pwmPeriod : Nat

/-- The free value of a duty register after INIT: "any 8-bit value (a draw)" (R25, R163, D30), one for each draw.
DESIGN CHOICE (log 5), safe. -/
opaque Config.freeDuty : Nat → Byte

end Sys2Proof
end

