-- ==== Sys2Proof/Machine/Floating.lean ====
section
/-! DEFINITION. The floating-point primitives of spec 00_scope.md R9: IEEE 754 multiplication and division rounded to
nearest, ties to even, in binary32 or binary64. PRESUMED (log 10): the spec takes the meaning of IEEE 754 from general
knowledge (93_implementation_defined.md section 2). -/

namespace Sys2Proof

/-- Bits of a significand. -/
def FpFormat.precision : FpFormat → Nat
  | .binary32 => 24
  | .binary64 => 53

/-- The least positive subnormal is `2^-unitExp`; 1.0 is `2^unitExp` units. -/
def FpFormat.unitExp : FpFormat → Nat
  | .binary32 => 149
  | .binary64 => 1074

/-- Rounded values of `2^limitExp` units or more are infinite: 2^128 in binary32, 2^1024 in binary64. -/
def FpFormat.limitExp : FpFormat → Nat
  | .binary32 => 277
  | .binary64 => 2098

/-- How many binary digits a number has; 0 has none. -/
def bitLength (n : Nat) : Nat := if n = 0 then 0 else n.log2 + 1

/-- `num / den` rounded to the nearest whole number, ties to even. -/
def roundToEven (num den : Nat) : Nat :=
  let q := num / den
  let r := num % den
  if 2 * r < den then q
  else if den < 2 * r then q + 1
  else q + q % 2

/-- How many low binary digits of a magnitude of `num / den` units do not fit a significand of `prec` bits. -/
def excessBits (prec num den : Nat) : Nat := bitLength (num / den) - prec

/-- The magnitude `num / den`, in units, rounded to a significand of `prec` bits: a whole multiple of `2^excess`. A
magnitude below `2^prec` units (the subnormals among them) is rounded to a whole unit. -/
def roundUnits (prec num den : Nat) : Nat :=
  let e := excessBits prec num den
  roundToEven num (den * 2 ^ e) * 2 ^ e

/-- The value of the format with this sign nearest to `num / den` units; infinite past the largest finite one. -/
def roundFp (fmt : FpFormat) (neg : Bool) (num den : Nat) : Fp :=
  let units := roundUnits fmt.precision num den
  if units < 2 ^ fmt.limitExp then .fin neg units else .inf neg

/-- `f32(bits)`: the binary32 value a pattern encodes (R9). -/
def f32 (bits : Word) : Fp :=
  let neg := bits.getLsbD 31
  let e := (bits.extractLsb' 23 8).toNat
  let frac := (bits.extractLsb' 0 23).toNat
  if e = 255 then (if frac = 0 then .inf neg else .nan)
  else if e = 0 then .fin neg frac
  else .fin neg ((2 ^ 23 + frac) * 2 ^ (e - 1))

/-- The binary32 pattern of a binary32 value; the quiet NaN 0x7FC00000 for a NaN (93_implementation_defined.md
section 2). -/
def encodeF32 : Fp → Word
  | .nan => 0x7FC00000
  | .inf neg => BitVec.ofNat 32 (neg.toNat * 2 ^ 31 + 255 * 2 ^ 23)
  | .fin neg k =>
    if k < 2 ^ 23 then BitVec.ofNat 32 (neg.toNat * 2 ^ 31 + k)
    else
      let e := k.log2 - 23
      BitVec.ofNat 32 (neg.toNat * 2 ^ 31 + (e + 1) * 2 ^ 23 + (k / 2 ^ e - 2 ^ 23))

/-- `toFmt(x)`: a binary32 value in the format, exactly (R9). -/
def toFmt (fmt : FpFormat) : Fp → Fp
  | .nan => .nan
  | .inf neg => .inf neg
  | .fin neg k => .fin neg (k * 2 ^ (fmt.unitExp - FpFormat.binary32.unitExp))

/-- `fmul(a, b)` (R9). -/
def fmul (fmt : FpFormat) : Fp → Fp → Fp
  | .nan, _ => .nan
  | _, .nan => .nan
  | .inf s, .inf t => .inf (s != t)
  | .inf s, .fin t k => if k = 0 then .nan else .inf (s != t)
  | .fin s k, .inf t => if k = 0 then .nan else .inf (s != t)
  | .fin s j, .fin t k => roundFp fmt (s != t) (j * k) (2 ^ fmt.unitExp)

/-- `fdiv(a, b)` (R9). -/
def fdiv (fmt : FpFormat) : Fp → Fp → Fp
  | .nan, _ => .nan
  | _, .nan => .nan
  | .inf _, .inf _ => .nan
  | .inf s, .fin t _ => .inf (s != t)
  | .fin s _, .inf t => .fin (s != t) 0
  | .fin s j, .fin t k =>
    if k = 0 then (if j = 0 then .nan else .inf (s != t))
    else roundFp fmt (s != t) (j * 2 ^ fmt.unitExp) k

/-- `isNaN` (R9). -/
def Fp.isNaN : Fp → Bool
  | .nan => true
  | _ => false

/-- `isInf` (R9). -/
def Fp.isInf : Fp → Bool
  | .inf _ => true
  | _ => false

/-- `isNeg`: sign bit set and value not zero (R9). R9 does not say whether a NaN pattern with its sign bit set has such a
value; that `Fp` keeps one NaN, without a sign, and that it is not negative here, is a DESIGN CHOICE (log 23), safe: no
step can tell, because R105 tests `isNaN` beside it for the same reason. -/
def Fp.isNeg : Fp → Bool
  | .nan => false
  | .inf neg => neg
  | .fin neg k => neg && k != 0

/-- The whole number `n` in the format, for numbers that are exact there (65536.0, R9). -/
def fpOfNat (fmt : FpFormat) (n : Nat) : Fp := .fin false (n * 2 ^ fmt.unitExp)

/-- A positive finite value of the format: what R6 asks of `CORRECTION_FACTOR` and `BASE_FREQ_HZ`. -/
def isPositiveFinite (fmt : FpFormat) : Fp → Bool
  | .fin false k => 0 < k && k < 2 ^ fmt.limitExp && roundUnits fmt.precision k 1 == k
  | _ => false

end Sys2Proof
end

