-- ==== Sys2Proof/Syntax.lean ====
section
/-! DEFINITION. Names of the block: channels, agents, operand forms, refusal reasons, the ten instructions of
spec/opcode_table.json, and the deliveries that carry them. -/

namespace Sys2Proof

/-- The two channels (R5): TONE is index 0, BEEP is index 1. -/
inductive Channel where
  | tone
  | beep
  deriving DecidableEq, Repr

/-- The two agents that step the block (R2). -/
inductive Agent where
  | host
  | timer
  deriving DecidableEq, Repr

/-- The operand forms of a word (R72). -/
inductive Form where
  | n
  | f
  | u
  deriving DecidableEq, Repr

/-- The closed list of refusal reasons (R201). Each is recorded by a refused step, which is a next state. -/
inductive RefusalReason where
  | reservedBits
  | reservedOpcode
  | tickFromHost
  | tickWhileIdle
  | notActive
  | alreadyActive
  | badFrequency
  | incrementRange
  | badDuration
  | durationRange
  deriving DecidableEq, Repr

/-- The commands and the event of the opcode table (R73, R74), one constructor per row.
The operand of form F is the binary32 pattern of `hz`, that of form U is `durationMs` (R72). -/
inductive Instr where
  | init
  | shutdown
  | settone (bits : Word)
  | toneon
  | toneoff
  | setbeep (bits : Word)
  | beepon
  | beepoff
  | timedbeep (d : Word)
  | tick
  deriving DecidableEq, Repr

/-- One word delivered to the block by one agent (R70, R74). -/
structure Event where
  src : Agent
  word : CmdWord
  deriving DecidableEq, Repr

end Sys2Proof
end

