-- ==== Sys2Proof/Machine/Converter.lean ====
section
/-! DEFINITION. The frequency-to-increment converter (spec 40_datapath.md R105 to R109), the countdown value
(42_control.md R181, R182), and the parameters the machine runs with. -/

namespace Sys2Proof

/-- The quotient of R105, left to right in `FP_FORMAT`:
`fdiv(fmul(fmul(toFmt(h), C), 65536.0), B)`. -/
def conversion (p : Params) (h : Fp) : Fp :=
  fdiv p.fmt (fmul p.fmt (fmul p.fmt (toFmt p.fmt h) p.correctionFactor) (fpOfNat p.fmt 65536)) p.baseFreqHz

/-- `trunc(x)` of a result below 2^32, else `IncrementRange` (R105, R106). Two results that positive finite parameters
cannot give are a DESIGN CHOICE (log 11), safe: a NaN is refused with the infinities, and a negative value is taken by its
magnitude. -/
def truncIncrement (fmt : FpFormat) : Fp → Except RefusalReason Word
  | .fin _ k =>
    if k < 2 ^ (32 + fmt.unitExp) then .ok (BitVec.ofNat 32 (k / 2 ^ fmt.unitExp)) else .error .incrementRange
  | _ => .error .incrementRange

/-- `toIncrement(bits)` (R105, R106). -/
def toIncrement (p : Params) (bits : Word) : Except RefusalReason Word :=
  let h := f32 bits
  if h.isNaN || h.isInf || h.isNeg then .error .badFrequency else truncIncrement p.fmt (conversion p h)

/-- `N = (d * CARRIER_RATE) div 1000`, exact (R7, R181). -/
def countdownTicks (p : Params) (d : Word) : Nat := d.toNat * p.carrierRate / 1000

/-- The countdown TIMEDBEEP loads, or why it is refused, checked in the order of R180 and R202. -/
def countdownValue (p : Params) (d : Word) : Except RefusalReason Word :=
  if d = 0 then .error .badDuration
  else if countdownTicks p d = 0 then .error .badDuration
  else if 2 ^ 32 ≤ countdownTicks p d then .error .durationRange
  else .ok (BitVec.ofNat 32 (countdownTicks p d))

/-- The binary32 pattern of 67.0 (R82). -/
def hz67 : Word := 0x42860000

/-- R107: `toIncrement(67.0) mod 2^24 < 2^16`. -/
def Params.meets67 (p : Params) : Bool :=
  match toIncrement p hz67 with
  | .ok v => v.toNat % 2 ^ 24 < 2 ^ 16
  | .error _ => false

/-- The constraints on a configuration: R6 (a positive rate, positive finite constants of the format) and R107. No rate
is too high: under one of `1000 * 2^32` or more R182 refuses every duration. DEDUCED (log 8), safe. -/
def Params.valid (p : Params) : Bool :=
  0 < p.carrierRate && isPositiveFinite p.fmt p.correctionFactor && isPositiveFinite p.fmt p.baseFreqHz && p.meets67

/-- The example configuration EX1 of D21 in either format: 25600 ticks per second, base 100.0, factor 1.0. No claim
about the hardware. -/
def Params.ex1 (fmt : FpFormat) : Params where
  carrierRate := 25600
  fmt := fmt
  correctionFactor := fpOfNat fmt 1
  baseFreqHz := fpOfNat fmt 100

/-- The parameters of the machine: any that meet the constraints, and no proof can tell which. Where the raw ones do not
meet them, EX1 stands in, so that `Config.params.valid` always holds. DESIGN CHOICE (log 7), safe. -/
def Config.params : Params :=
  if Config.rawParams.valid then Config.rawParams else Params.ex1 .binary32

end Sys2Proof
end

