-- ==== Sys2Proof/Machine/Operands.lean ====
section
/-! DEFINITION. The operand forms of the command words (spec 30_encoding.md R72) under parameters; the meanings
give them the machine's, `Config.params`. -/

namespace Sys2Proof.Machine

/-- Form F: the increment of the frequency whose binary32 pattern is the operand (R72, R105). -/
def incrementOperand (p : Params) (bits : Word) : Except RefusalReason Word := toIncrement p bits

/-- Form U: the countdown of the duration in milliseconds, taken with no scaling (R72, R181). -/
def countdownOperand (p : Params) (d : Word) : Except RefusalReason Word := countdownValue p d

end Sys2Proof.Machine
end

