-- ==== Sys2Proof/Decode.lean ====
section
/-! DEFINITION. Decoding and encoding of command words (spec 30_encoding.md R71 to R79, 20_memory.md R53). -/

namespace Sys2Proof

/-- `OPC` = w[7:0] (R71). -/
def opcField (w : CmdWord) : Byte := w.extractLsb' 0 8

/-- `RSV` = w[31:8] (R71). -/
def rsvField (w : CmdWord) : BitVec 24 := w.extractLsb' 8 24

/-- `OPND` = w[63:32] (R71). -/
def opndField (w : CmdWord) : Word := w.extractLsb' 32 32

/-- The opcode map of the host port (R73): a code's form and the command it makes of an operand; none for a reserved
code (R75). -/
def hostRow (opc : Byte) : Option (Form × (Word → Instr)) :=
  match opc.toNat with
  | 0x01 => some (.n, fun _ => .init)
  | 0x02 => some (.n, fun _ => .shutdown)
  | 0x03 => some (.f, .settone)
  | 0x04 => some (.n, fun _ => .toneon)
  | 0x05 => some (.n, fun _ => .toneoff)
  | 0x06 => some (.f, .setbeep)
  | 0x07 => some (.n, fun _ => .beepon)
  | 0x08 => some (.n, fun _ => .beepoff)
  | 0x09 => some (.u, .timedbeep)
  | _ => none

/-- `decode(w, src)` with the checks in the order of R78, which fixes the reason a word with several faults reports. -/
def decode (src : Agent) (w : CmdWord) : Except RefusalReason Instr :=
  let opc := opcField w
  let opnd := opndField w
  if rsvField w ≠ 0 then .error .reservedBits
  else if opc = 0x80 then
    if src = .host then .error .tickFromHost
    else if opnd ≠ 0 then .error .reservedBits
    else .ok .tick
  else if src = .timer then .error .reservedOpcode
  else
    match hostRow opc with
    | none => .error .reservedOpcode
    | some (form, make) =>
      if form = .n ∧ opnd ≠ 0 then .error .reservedBits else .ok (make opnd)

/-- The word with this code and operand and a zero `RSV` (R71). -/
def packWord (opc : Byte) (opnd : Word) : CmdWord := (opnd.setWidth 64 <<< 32) ||| opc.setWidth 64

/-- The word of an instruction (R71 to R74). -/
def encode : Instr → CmdWord
  | .init => packWord 0x01 0
  | .shutdown => packWord 0x02 0
  | .settone bits => packWord 0x03 bits
  | .toneon => packWord 0x04 0
  | .toneoff => packWord 0x05 0
  | .setbeep bits => packWord 0x06 bits
  | .beepon => packWord 0x07 0
  | .beepoff => packWord 0x08 0
  | .timedbeep d => packWord 0x09 d
  | .tick => packWord 0x80 0

/-- The agent that may deliver an instruction (R73, R74; the "agent" column of the opcode table). -/
def agentOf : Instr → Agent
  | .tick => .timer
  | _ => .host

/-- The delivery that carries an instruction. -/
def eventOf (i : Instr) : Event := ⟨agentOf i, encode i⟩

/-! ### Words carried as bytes (R53, R79) -/

/-- The eight bytes of a word, least significant first: byte k holds bits [8k+7:8k] (R53). -/
def bytesOfWord (w : CmdWord) : List Byte :=
  [w.extractLsb' 0 8, w.extractLsb' 8 8, w.extractLsb' 16 8, w.extractLsb' 24 8,
   w.extractLsb' 32 8, w.extractLsb' 40 8, w.extractLsb' 48 8, w.extractLsb' 56 8]

/-- The word whose bytes, least significant first, are these. -/
def wordOfBytes (b0 b1 b2 b3 b4 b5 b6 b7 : Byte) : CmdWord :=
  b0.setWidth 64 ||| (b1.setWidth 64 <<< 8) ||| (b2.setWidth 64 <<< 16) ||| (b3.setWidth 64 <<< 24)
    ||| (b4.setWidth 64 <<< 32) ||| (b5.setWidth 64 <<< 40) ||| (b6.setWidth 64 <<< 48) ||| (b7.setWidth 64 <<< 56)

/-- The words of a byte stream, in consecutive groups of eight bytes (R79). Fewer than eight bytes at the end carry no
word. DESIGN CHOICE (log 14), safe. -/
def wordsOfBytes : List Byte → List CmdWord
  | b0 :: b1 :: b2 :: b3 :: b4 :: b5 :: b6 :: b7 :: rest =>
    wordOfBytes b0 b1 b2 b3 b4 b5 b6 b7 :: wordsOfBytes rest
  | _ => []

/-- Why bytes do not decode: there is no whole word of eight bytes (log 14), or the word is refused (R78). -/
inductive DecodeError where
  | incompleteWord
  | refusedWord (r : RefusalReason)
  deriving DecidableEq, Repr

/-- The first instruction of a byte stream and the bytes after it. Total on any bytes. -/
def decodeBytes (src : Agent) : List Byte → Except DecodeError (Instr × List Byte)
  | b0 :: b1 :: b2 :: b3 :: b4 :: b5 :: b6 :: b7 :: rest =>
    match decode src (wordOfBytes b0 b1 b2 b3 b4 b5 b6 b7) with
    | .ok i => .ok (i, rest)
    | .error r => .error (.refusedWord r)
  | _ => .error .incompleteWord

/-- The agent that delivers a word given without one: TIMER for the event code 0x80, HOST for every other code
(the "agent" column of the opcode table). DEDUCED (log 15), safe. -/
def deliveringAgent (w : CmdWord) : Agent := if opcField w = 0x80 then .timer else .host

/-- The word of an instruction of the opcode table: its low `nbits` bits, every bit above them zero. -/
def tableWord (nbits w : Nat) : CmdWord := BitVec.ofNat 64 (w % 2 ^ nbits)

/-- The instruction the decoder reads from a table row's bits, laid out as bytes and delivered by the row's agent. -/
def decodeTableWord (nbits w : Nat) : Option Instr :=
  let word := tableWord nbits w
  match decodeBytes (deliveringAgent word) (bytesOfWord word) with
  | .ok (i, _) => some i
  | .error _ => none

end Sys2Proof
end

