-- ==== Sys2Proof/Machine/Datapath.lean ====
section
/-! DEFINITION. The waveform table read and the DDS step (spec 40_datapath.md R100, R110; 20_memory.md R50;
00_scope.md R7). -/

namespace Sys2Proof

/-- `sample(i) = MemRead(i, 1) = SINE_TABLE(i)` (R50, R100). -/
def sample (i : Byte) : Byte := Config.sineTable i

/-- The table index of an accumulator: `acc[23:16]`, which is `(acc >> 16) & 0xFF` (R5, R7, R110; 90_conflicts.md C1;
`tableIndex_eq_shift_mask`, Laws/Ops.lean). -/
def tableIndex (a : Word) : Byte := a.extractLsb' 16 8

/-- `ddsStep(a, i)`: the next accumulator and the sample selected by it (R110; 90_conflicts.md C6). -/
def ddsStep (a i : Word) : Word × Byte :=
  let next := a + i
  (next, sample (tableIndex next))

end Sys2Proof
end

