-- ==== Sys2Proof/Machine/State.lean ====
section
/-! DEFINITION. The state of the block (spec 10_state.md R20 to R41) and the ways a step can stop. -/

namespace Sys2Proof.Machine

/-- S1, the carrier timer state (R28). -/
inductive Carrier where
  /-- "hardware timer clock disabled, no interrupts" -/
  | idle
  /-- "timer enabled, firing at a fixed carrier rate" -/
  | running
  deriving DecidableEq, Repr

/-- S2 and S3, the drive mode of an output line (R30). -/
inductive PinMode where
  /-- "non-driving (input/high-impedance)" -/
  | quiescent
  /-- "driving (alternate/PWM)" -/
  | driving
  deriving DecidableEq, Repr

/-- A per-channel field of the record, written `(TONE, BEEP)` in the spec. -/
structure Pair (α : Type) where
  tone : α
  beep : α
  deriving DecidableEq, Repr

/-- The state record of R20 (S0 to S13), and three fields of the MODEL's own: `lastRefusal`, `draws`, `port`. -/
structure State where
  /-- S0: between INIT and SHUTDOWN (R29). -/
  active : Bool
  /-- S1: the carrier timer (R28). -/
  carrier : Carrier
  /-- S2, S3: `pin[c]` (R30). -/
  pin : Pair PinMode
  /-- S4, S5: `en[c]`, enabled flag and PWM compare-enable bit in one (R27). -/
  en : Pair Bool
  /-- S6, S7: `inc[c]`, phase increments (R24). -/
  inc : Pair Word
  /-- S8, S9: `acc[c]`, phase accumulators (R23). -/
  acc : Pair Word
  /-- S10, S11: `duty[c]`, PWM duty-cycle registers (R25). -/
  duty : Pair Byte
  /-- S12: the timed countdown, 0 when none is active (R26). -/
  cnt : Word
  /-- S13: the sticky model flag of R40. -/
  refused : Bool
  /-- The MODEL's own: the reason of the latest refused step (R201, R202; log 4). No rule reads it. -/
  lastRefusal : Option RefusalReason
  /-- The MODEL's own: free values drawn so far (D30; log 5). -/
  draws : Nat
  /-- The MODEL's own: the deliveries to be performed, the first one next; it fixes the interleaving of the two agents
  that R57 leaves open (log 1). -/
  port : List Event
  deriving DecidableEq, Repr

/-- The faults of the block. There is none: "The block has no fault outcome" (R10), "The block raises no exception"
(R200). DEDUCED (log 18), safe. -/
inductive Fault
  deriving DecidableEq, Repr

/-- The ways a step has no meaning. -/
inductive Refusal where
  /-- An instruction without a meaning yet, raised by an arm of `exec` alone; safe. Every arm has its meaning, so nothing
  raises it: the refusals of R201 are next states that set `refused` (log 3). -/
  | notModelled (mnemonic : String)
  deriving DecidableEq, Repr

/-- The power-on state (R36, R240, R241): not active, carrier Idle, lines Quiescent, not refused. The spec gives `en`,
`inc`, `acc`, `duty` and `cnt` no value there: false and zero are the model's. DESIGN CHOICE (log 6), unsafe. -/
def State.reset : State where
  active := false
  carrier := .idle
  pin := ⟨.quiescent, .quiescent⟩
  en := ⟨false, false⟩
  inc := ⟨0, 0⟩
  acc := ⟨0, 0⟩
  duty := ⟨0, 0⟩
  cnt := 0
  refused := false
  lastRefusal := none
  draws := 0
  port := []

end Sys2Proof.Machine
end

