-- ==== Sys2Proof/Machine/Flags.lean ====
section
/-! DEFINITION. What the state record determines without storing it (spec 10_state.md R31, R32, R34; 40_datapath.md
R115; 60_exceptions.md R205, R225, R226). -/

namespace Sys2Proof.Machine

/-- The field of a channel, `f[c]`. -/
def Pair.get {α : Type} (p : Pair α) : Channel → α
  | .tone => p.tone
  | .beep => p.beep

/-- The pair with the field of one channel replaced, `f[c] <- v`. -/
def Pair.set {α : Type} (p : Pair α) (c : Channel) (v : α) : Pair α :=
  match c with
  | .tone => ⟨v, p.beep⟩
  | .beep => ⟨p.tone, v⟩

/-- The TIMER agent has a TICK step; equally, the tick interrupt is enabled and pending (R34, R131, R205). -/
def State.tickEnabled (s : State) : Bool := s.active && s.carrier == .running

/-- The channel sub-flags of the source (R32, D32). -/
inductive ChannelMode where
  | channelOff
  | channelOn
  | channelTimedOn
  deriving DecidableEq, Repr

/-- `mode(c)` (R32). -/
def State.mode (s : State) : Channel → ChannelMode
  | .tone => if s.en.tone then .channelOn else .channelOff
  | .beep => if s.en.beep then (if s.cnt = 0 then .channelOn else .channelTimedOn) else .channelOff

/-- The duty value that reaches line c: `duty[c]` while `en[c]` and `pin[c] = Driving`, else none (R27, R115). What a
line without one does is not given (log 20). -/
def State.lineDuty (s : State) (c : Channel) : Option Byte :=
  if s.en.get c && s.pin.get c == .driving then some (s.duty.get c) else none

/-- The power states (R225) and the module-level off state (R226), told apart as `State.power` says. -/
inductive PowerState where
  | running
  | idle
  | off
  deriving DecidableEq, Repr

/-- The power state of the block, in three names. R225 names two states by the carrier, and SHUTDOWN enters its Idle;
R226 adds an off state after SHUTDOWN and says nothing of power-on. That every inactive state, power-on included, is named
off and not idle, so that off and idle exclude each other, is a DESIGN CHOICE (log 22), safe. -/
def State.power (s : State) : PowerState :=
  if s.active then (if s.carrier = .running then .running else .idle) else .off

/-- What a model observes after every step: the whole record S0 to S13 (R20, R31), without the model's own fields. -/
structure Observation where
  active : Bool
  carrier : Carrier
  pin : Pair PinMode
  en : Pair Bool
  inc : Pair Word
  acc : Pair Word
  duty : Pair Byte
  cnt : Word
  refused : Bool
  deriving DecidableEq, Repr

/-- The observation of a state (R31). -/
def State.observe (s : State) : Observation where
  active := s.active
  carrier := s.carrier
  pin := s.pin
  en := s.en
  inc := s.inc
  acc := s.acc
  duty := s.duty
  cnt := s.cnt
  refused := s.refused

end Sys2Proof.Machine
end

