-- ==== Sys2Proof/Machine/Ops.lean ====
section
/-! DEFINITION. The named operations on the state that the meanings share: refusing a step (the block's only
"exception", spec 00_scope.md R10), admission (42_control.md R160), the writes of the commands, the phases of a tick
(41_tick.md R130), and taking the next delivery (20_memory.md R57). -/

namespace Sys2Proof.Machine

/-- What a step answers. -/
abbrev Result := Host.Outcome State Fault Refusal

/-! ### Refusals and admission -/

/-- `refuse(reason)`: no architectural field changes, the sticky flag is set (R8, R10, R40), and the model records the
reason (log 4). The block raises no exception (R200); this is the whole of what a step can do instead of its effect,
and there is no return from it. -/
def State.refuse (r : RefusalReason) (s : State) : State := { s with refused := true, lastRefusal := some r }

/-- The outcome of an attempt from `s`: the state it gives, or the refusal of `s`. Both are next states (log 3). -/
def attempt (s : State) : Except RefusalReason State → Result
  | .ok t => .next t
  | .error r => .next (s.refuse r)

/-- Admission of every command but INIT and SHUTDOWN (R160). -/
def State.whenActive (s : State) (k : Except RefusalReason State) : Except RefusalReason State :=
  if s.active then k else .error .notActive

/-- Admission of INIT (R160, R164). -/
def State.whenInactive (s : State) (k : Except RefusalReason State) : Except RefusalReason State :=
  if s.active then .error .alreadyActive else k

/-- Admission of TICK (R131). -/
def State.whenTicking (s : State) (k : Except RefusalReason State) : Except RefusalReason State :=
  if s.tickEnabled then k else .error .tickWhileIdle

/-! ### Writes of the commands -/

/-- `en[c] <- b`. -/
def State.setEn (s : State) (c : Channel) (b : Bool) : State := { s with en := s.en.set c b }

/-- `inc[c] <- v`. -/
def State.setInc (s : State) (c : Channel) (v : Word) : State := { s with inc := s.inc.set c v }

/-- `cnt <- v`. -/
def State.setCnt (s : State) (v : Word) : State := { s with cnt := v }

/-- `carrier <- v`. -/
def State.setCarrier (s : State) (v : Carrier) : State := { s with carrier := v }

/-- `pin[TONE] <- m; pin[BEEP] <- m`. -/
def State.setPins (s : State) (m : PinMode) : State := { s with pin := ⟨m, m⟩ }

/-- `active <- b`. -/
def State.setActive (s : State) (b : Bool) : State := { s with active := b }

/-- INIT's writes of the channel fields: `en`, `inc`, `acc`, `cnt` cleared (D9). -/
def State.clearChannels (s : State) : State :=
  { s with en := ⟨false, false⟩, inc := ⟨0, 0⟩, acc := ⟨0, 0⟩, cnt := 0 }

/-- `duty[TONE], duty[BEEP] <- unspecified`: two fresh free values (D30; log 5). -/
def State.drawDuties (s : State) : State :=
  { s with duty := ⟨Config.freeDuty s.draws, Config.freeDuty (s.draws + 1)⟩, draws := s.draws + 2 }

/-- Turn a channel on: its enable bit is set and the carrier runs (R175, R177, R180). -/
def State.channelOn (s : State) (c : Channel) : State := (s.setEn c true).setCarrier .running

/-- Turn a channel off: its enable bit is cleared, the carrier is left (R176, R178). -/
def State.channelOff (s : State) (c : Channel) : State := s.setEn c false

/-! ### The phases of a tick (R130) -/

/-- Both accumulators advance and both duty registers are written, whatever the enables (R132). -/
def State.advance (s : State) : State :=
  let t := ddsStep s.acc.tone s.inc.tone
  let b := ddsStep s.acc.beep s.inc.beep
  { s with acc := ⟨t.1, b.1⟩, duty := ⟨t.2, b.2⟩ }

/-- The timed countdown (R133): it is decremented while it is not zero, and reaching zero turns BEEP off. -/
def State.countDown (s : State) : State :=
  if s.cnt = 0 then s
  else if s.cnt - 1 = 0 then (s.setCnt 0).setEn .beep false
  else s.setCnt (s.cnt - 1)

/-- Auto-shutdown, the last action of a tick (R134): with both channels off the carrier stops. -/
def State.autoShutdown (s : State) : State :=
  if s.en.tone || s.en.beep then s else s.setCarrier .idle

/-! ### Deliveries (R57, R70) -/

/-- Deliveries added after those pending: all that the outside can do to the block (R31). -/
def State.deliver (s : State) (es : List Event) : State := { s with port := s.port ++ es }

/-- A byte stream delivered by an agent (R53, R79). -/
def State.deliverBytes (s : State) (src : Agent) (bs : List Byte) : State :=
  s.deliver ((wordsOfBytes bs).map fun w => ⟨src, w⟩)

/-- The state with this delivery pending first. -/
def State.deliverFirst (s : State) (e : Event) : State := { s with port := e :: s.port }

/-- What the next step performs. -/
inductive Pending where
  /-- an instruction, in the state with its delivery taken -/
  | run (i : Instr) (s : State)
  /-- a word that does not decode, in the state with its delivery taken -/
  | reject (r : RefusalReason) (s : State)
  /-- nothing: no delivery is pending and the TIMER has no step -/
  | quiet
  deriving DecidableEq, Repr

/-- The next delivery, decoded (R57, R78). With none pending the TIMER takes its TICK step if it has one (R131, R205),
else no agent has a step. DESIGN CHOICE (log 1, log 2). -/
def State.pending (s : State) : Pending :=
  match s.port with
  | [] => if s.tickEnabled then .run .tick s else .quiet
  | e :: rest =>
    match decode e.src e.word with
    | .ok i => .run i { s with port := rest }
    | .error r => .reject r { s with port := rest }

end Sys2Proof.Machine
end

