-- ==== Sys2Proof/Machine/ChannelControl.lean ====
section
/-! DEFINITION. TONEON, TONEOFF, BEEPON, BEEPOFF and TIMEDBEEP (spec 42_control.md R175 to R183). -/

namespace Sys2Proof.Machine

/-- TONEON (R175): the phase is not reset (D17). -/
def execToneon (s : State) : Result := attempt s (s.whenActive (.ok (s.channelOn .tone)))

/-- TONEOFF (R176): the carrier is not stopped. -/
def execToneoff (s : State) : Result := attempt s (s.whenActive (.ok (s.channelOff .tone)))

/-- BEEPON (R177): a running countdown is cancelled (D14). -/
def execBeepon (s : State) : Result := attempt s (s.whenActive (.ok ((s.channelOn .beep).setCnt 0)))

/-- BEEPOFF (R178): the countdown is cancelled (D14); the carrier is not stopped. -/
def execBeepoff (s : State) : Result := attempt s (s.whenActive (.ok ((s.channelOff .beep).setCnt 0)))

/-- The timed beep under parameters: BEEP is turned on and `N` of R181 is loaded, or the command is refused (R180,
R182). -/
def State.timedBeep (s : State) (p : Params) (d : Word) : Except RefusalReason State :=
  s.whenActive ((countdownOperand p d).map fun n => (s.channelOn .beep).setCnt n)

/-- TIMEDBEEP d (R180 to R183). -/
def execTimedbeep (d : Word) (s : State) : Result := attempt s (s.timedBeep Config.params d)

end Sys2Proof.Machine
end

