-- ==== Sys2Proof/Machine/Frequency.lean ====
section
/-! DEFINITION. SETTONE and SETBEEP (spec 42_control.md R170 to R172). -/

namespace Sys2Proof.Machine

/-- `inc[c] <- toIncrement(bits)`, which may refuse; the accumulator is left, so the change is phase-continuous (R172). -/
def State.setFrequency (s : State) (p : Params) (c : Channel) (bits : Word) : Except RefusalReason State :=
  s.whenActive ((incrementOperand p bits).map (s.setInc c))

/-- SETTONE hz (R170). -/
def execSettone (bits : Word) (s : State) : Result := attempt s (s.setFrequency Config.params .tone bits)

/-- SETBEEP hz (R171). -/
def execSetbeep (bits : Word) (s : State) : Result := attempt s (s.setFrequency Config.params .beep bits)

end Sys2Proof.Machine
end

