-- ==== Sys2Proof/Machine/Lifecycle.lean ====
section
/-! DEFINITION. INIT and SHUTDOWN (spec 42_control.md R163 to R166). -/

namespace Sys2Proof.Machine

/-- INIT (R163): refused while active (R164); else the lines drive, the carrier is Idle, the channel fields are cleared,
the duty registers hold free values, and the module is active. -/
def execInit (s : State) : Result :=
  attempt s (s.whenInactive
    (.ok (((((s.setPins .driving).setCarrier .idle).clearChannels).drawDuties).setActive true)))

/-- SHUTDOWN (R166): admitted always; the channel fields keep their values (D11). -/
def execShutdown (s : State) : Result :=
  attempt s (.ok (((s.setCarrier .idle).setPins .quiescent).setActive false))

end Sys2Proof.Machine
end

