-- ==== Sys2Proof/Machine/Tick.lean ====
section
/-! DEFINITION. TICK, the carrier timer interrupt service routine (spec 41_tick.md R130 to R137). -/

namespace Sys2Proof.Machine

/-- TICK (R130): refused where the TIMER has no step (R131); else both channels advance, the countdown runs, and the
carrier stops if both channels are then off. It saves no context and restores none (R207, R208). -/
def execTick (s : State) : Result :=
  attempt s (s.whenTicking (.ok s.advance.countDown.autoShutdown))

end Sys2Proof.Machine
end

