-- ==== Sys2Proof/Machine/Dispatch.lean ====
section
/-! DEFINITION. One arm per instruction of spec/opcode_table.json. -/

namespace Sys2Proof.Machine

def exec (i : Instr) (s : State) : Host.Outcome State Fault Refusal :=
  match i with
  | .init => Sys2Proof.Machine.execInit s
  | .shutdown => Sys2Proof.Machine.execShutdown s
  | .settone bits => Sys2Proof.Machine.execSettone bits s
  | .toneon => Sys2Proof.Machine.execToneon s
  | .toneoff => Sys2Proof.Machine.execToneoff s
  | .setbeep bits => Sys2Proof.Machine.execSetbeep bits s
  | .beepon => Sys2Proof.Machine.execBeepon s
  | .beepoff => Sys2Proof.Machine.execBeepoff s
  | .timedbeep d => Sys2Proof.Machine.execTimedbeep d s
  | .tick => Sys2Proof.Machine.execTick s

end Sys2Proof.Machine
end

