-- ==== Sys2Proof/Machine/Step.lean ====
section
/-! DEFINITION. One step of the block, by whichever agent is next (spec 00_scope.md R2, R10; 20_memory.md R57). -/

namespace Sys2Proof.Machine

/-- One step: the next delivery is decoded and performed, or refused (R78); with no agent to act the state stays. -/
def step (s : State) : Host.Outcome State Fault Refusal :=
  match s.pending with
  | .run i t => exec i t
  | .reject r t => .next (t.refuse r)
  | .quiet => .next s

/-- `s` with a table row's word delivered first, by the agent of its row, so that the next step performs it. It stands
for the delivery of a word from outside (log 1). -/
def State.withFetchWord (s : State) (nbits w : Nat) : State :=
  s.deliverFirst ⟨deliveringAgent (tableWord nbits w), tableWord nbits w⟩

end Sys2Proof.Machine
end

