-- ==== Sys2Proof/Machine/Assembler.lean ====
section
/-! DEFINITION. The assembler syntax and the pseudo-instruction TICKS (spec 30_encoding.md R80, R81), from text to the
deliveries it stands for. What R80 and R81 leave open (blank lines, white space, the form of the
numbers, the case of the aliases, TICK as a line) is a DESIGN CHOICE (log 16), safe. -/

namespace Sys2Proof.Machine

/-- Why a line is not in the syntax of R80. -/
inductive AsmError where
  | unknownMnemonic
  | badOperand
  | operandCount
  deriving DecidableEq, Repr

/-- A mnemonic of R80 or R81. -/
inductive AsmOp where
  /-- form N, with the instruction it names -/
  | plain (i : Instr)
  | settone
  | setbeep
  | timedbeep
  | ticks
  deriving DecidableEq, Repr

/-- The pieces of a text between the characters that separate. -/
def splitAtChars (sep : Char → Bool) : List Char → List (List Char)
  | [] => [[]]
  | c :: cs =>
    match splitAtChars sep cs with
    | [] => if sep c then [[], []] else [[c]]
    | w :: ws => if sep c then [] :: w :: ws else (c :: w) :: ws

/-- The words of a line: its comment dropped, then split at white space. -/
def lineWords (line : List Char) : List (List Char) :=
  (splitAtChars Char.isWhitespace (line.takeWhile (· != ';'))).filter (fun w => !w.isEmpty)

/-- The mnemonics and the source's call names (R80), in lower case. -/
def asmTable : List (List Char × AsmOp) :=
  [("init".toList, .plain .init), ("shutdown".toList, .plain .shutdown),
   ("settone".toList, .settone), ("settonefrequency".toList, .settone),
   ("toneon".toList, .plain .toneon), ("toneoff".toList, .plain .toneoff),
   ("setbeep".toList, .setbeep), ("setbeepfrequency".toList, .setbeep),
   ("beepon".toList, .plain .beepon), ("beepoff".toList, .plain .beepoff),
   ("timedbeep".toList, .timedbeep), ("tick".toList, .plain .tick), ("ticks".toList, .ticks)]

/-- The operation a mnemonic names; case does not matter (R80). -/
def asmOp (name : List Char) : Option AsmOp := asmTable.lookup (name.map Char.toLower)

/-- The value of a digit in base 16; its letters may be of either case. DESIGN CHOICE (log 16), safe. -/
def hexDigit (c : Char) : Option Nat :=
  let n := c.toNat
  if 48 ≤ n ∧ n ≤ 57 then some (n - 48)
  else if 97 ≤ n ∧ n ≤ 102 then some (n - 87)
  else if 65 ≤ n ∧ n ≤ 70 then some (n - 55)
  else none

/-- The value of digits in a base, most significant first, on top of what stands before them. -/
def digitsValue (base : Nat) : List Char → Nat → Option Nat
  | [], acc => some acc
  | c :: cs, acc =>
    match hexDigit c with
    | some v => if v < base then digitsValue base cs (acc * base + v) else none
    | none => none

/-- An unsigned decimal or `0x` hexadecimal integer, any number of digits, the `x` in lower case (R80). The same forms
for `n` of `TICKS n`, of which R81 says only that it is an unsigned integer, are a DESIGN CHOICE (log 16), safe. -/
def asmNat : List Char → Option Nat
  | [] => none
  | '0' :: 'x' :: c :: cs => digitsValue 16 (c :: cs) 0
  | c :: cs => digitsValue 10 (c :: cs) 0

/-- A decimal number without its sign, rounded to binary32 to nearest, ties to even (R80).

R80 says only "a decimal number". The form taken here, with `asmFloat`, is a DESIGN CHOICE (log 16), safe: decimal digits
with at most one point, of which there may be none before it or none after it but not neither (`.5`, `5.` and `5` are
literals, `.` is not); a minus sign may stand before them and a plus sign may not; no exponent. -/
def asmDecimal (neg : Bool) (cs : List Char) : Option Word :=
  let whole := cs.takeWhile (· != '.')
  let fraction := (cs.dropWhile (· != '.')).drop 1
  if whole.isEmpty && fraction.isEmpty then none
  else
    (digitsValue 10 (whole ++ fraction) 0).map fun n =>
      encodeF32 (roundFp .binary32 neg (n * 2 ^ FpFormat.binary32.unitExp) (10 ^ fraction.length))

/-- A form-F literal: `#0x` and eight hexadecimal digits give the pattern verbatim, else a decimal number (R80), whose
optional minus sign is a DESIGN CHOICE (log 16), safe. -/
def asmFloat : List Char → Option Word
  | '#' :: '0' :: 'x' :: cs => if cs.length = 8 then (digitsValue 16 cs 0).map (BitVec.ofNat 32) else none
  | '-' :: cs => asmDecimal true cs
  | cs => asmDecimal false cs

/-- A form-U literal: a 32-bit unsigned integer (R72, R80). -/
def asmDuration (cs : List Char) : Option Word :=
  (asmNat cs).bind fun n => if n < 2 ^ 32 then some (BitVec.ofNat 32 n) else none

/-- `TICKS n`: n consecutive TICK events (R81). -/
def expandTicks (n : Nat) : List Event := List.replicate n (eventOf .tick)

/-- The last `n` hexadecimal digits of a number, most significant first. -/
def hexText : Nat → Nat → List Char
  | 0, _ => []
  | n + 1, w => hexText n (w / 16) ++ [Nat.digitChar (w % 16)]

/-- A line of R80 for an instruction: its mnemonic, then for form F the pattern of its operand as `#0x` and eight digits,
for form U the operand as a `0x` integer. TICK as a line is a DESIGN CHOICE (log 16), safe. -/
def lineOf : Instr → List Char
  | .init => "INIT".toList
  | .shutdown => "SHUTDOWN".toList
  | .settone bits => "SETTONE #0x".toList ++ hexText 8 bits.toNat
  | .toneon => "TONEON".toList
  | .toneoff => "TONEOFF".toList
  | .setbeep bits => "SETBEEP #0x".toList ++ hexText 8 bits.toNat
  | .beepon => "BEEPON".toList
  | .beepoff => "BEEPOFF".toList
  | .timedbeep d => "TIMEDBEEP 0x".toList ++ hexText 8 d.toNat
  | .tick => "TICK".toList

/-- The text of a list of instructions, one line each (R80). -/
def textOf (is : List Instr) : List Char := ['\n'].intercalate (is.map lineOf)

/-- The deliveries of an operation with its operands. -/
def asmApply : AsmOp → List (List Char) → Except AsmError (List Event)
  | .plain i, [] => .ok [eventOf i]
  | .settone, [x] => ((asmFloat x).map fun b => [eventOf (.settone b)]).elim (.error .badOperand) .ok
  | .setbeep, [x] => ((asmFloat x).map fun b => [eventOf (.setbeep b)]).elim (.error .badOperand) .ok
  | .timedbeep, [x] => ((asmDuration x).map fun d => [eventOf (.timedbeep d)]).elim (.error .badOperand) .ok
  | .ticks, [x] => ((asmNat x).map expandTicks).elim (.error .badOperand) .ok
  | _, _ => .error .operandCount

/-- The deliveries of one line (R80). -/
def assembleLine (line : List Char) : Except AsmError (List Event) :=
  match lineWords line with
  | [] => .ok []
  | name :: operands =>
    match asmOp name with
    | none => .error .unknownMnemonic
    | some op => asmApply op operands

/-- The deliveries of lines, in order. -/
def assembleLines : List (List Char) → Except AsmError (List Event)
  | [] => .ok []
  | line :: rest =>
    match assembleLine line, assembleLines rest with
    | .ok es, .ok fs => .ok (es ++ fs)
    | .error e, _ => .error e
    | _, .error e => .error e

/-- The deliveries of a program text, one command a line (R80). -/
def assemble (text : List Char) : Except AsmError (List Event) :=
  assembleLines (splitAtChars (· == '\n') text)

end Sys2Proof.Machine
end

