-- ==== Sys2Proof/Safety.lean ====
section
/-! DEFINITION. Runs of the block and what a good state is (spec 10_state.md R33, R36, R40; 40_datapath.md R116),
and what rounding is (00_scope.md R9). -/

namespace Sys2Proof.Machine

/-- `n` steps of the machine; it is `Host.Core.run` of `Sys2Proof.core` (`run_eq_core`, Laws/Run.lean). -/
def run : Nat → State → Result
  | 0, s => .next s
  | n + 1, s =>
    match step s with
    | .next t => run n t
    | .fault r => .fault r
    | .refused r => .refused r

/-- The deliveries of a list of instructions, each by its agent. -/
def trace (is : List Instr) : List Event := is.map eventOf

/-- The next step performs instruction `i`. -/
def State.performs (s : State) (i : Instr) : Prop := ∃ t, s.pending = .run i t

/-- A power-on state (R36): what the spec fixes of it, the other fields being anything. -/
abbrev State.PowerOn (s : State) : Prop :=
  s.active = false ∧ s.carrier = .idle ∧ s.pin = ⟨.quiescent, .quiescent⟩ ∧ s.refused = false

/-- I1 of R33: an active module with a channel on has its carrier running. -/
abbrev State.CarrierServes (s : State) : Prop :=
  s.active = true → s.en.tone = true ∨ s.en.beep = true → s.carrier = .running

/-- I2 of R33: no countdown without BEEP. -/
abbrev State.CountdownOwned (s : State) : Prop := s.en.beep = false → s.cnt = 0

/-- I3 of R33: no carrier outside a session. -/
abbrev State.IdleOutside (s : State) : Prop := s.active = false → s.carrier = .idle

/-- I4 of R33: both lines drive in a session and neither outside. -/
abbrev State.PinsFollow (s : State) : Prop :=
  s.pin = if s.active then ⟨.driving, .driving⟩ else ⟨.quiescent, .quiescent⟩

/-- The invariants I1 to I4 of R33. -/
abbrev State.Inv (s : State) : Prop := s.CarrierServes ∧ s.CountdownOwned ∧ s.IdleOutside ∧ s.PinsFollow

/-- R116: the duty registers hold the samples of the accumulators. -/
abbrev State.DutyMatches (s : State) : Prop :=
  s.duty = ⟨sample (tableIndex s.acc.tone), sample (tableIndex s.acc.beep)⟩

/-- `k` units are a value of the format's precision, its exponent not bounded above (R9, log 10). -/
def FitsPrecision (fmt : FpFormat) (k : Nat) : Prop := ∃ m e : Nat, m < 2 ^ fmt.precision ∧ k = m * 2 ^ e

/-- The last digit of the significand of `k` units is 0 (R9, log 10). -/
def EvenSignificand (fmt : FpFormat) (k : Nat) : Prop := k / 2 ^ (bitLength k - fmt.precision) % 2 = 0

/-- The magnitude of `k` units. -/
def magnitude (fmt : FpFormat) (k : Nat) : ℚ := k / 2 ^ fmt.unitExp

/-- `r` is the value of the format to which the exact value of this sign and of magnitude `x` rounds, to nearest with
ties to even (R9): an infinity from half a step past the largest finite value on; below it a finite value of the format,
to which no value of its precision is nearer, and as near only if the significand of `r` is even. PRESUMED (log 10). -/
def IsRounded (fmt : FpFormat) (neg : Bool) (x : ℚ) (r : Fp) : Prop :=
  if (2 ^ fmt.limitExp - 2 ^ (fmt.limitExp - fmt.precision - 1) : ℚ) ≤ x * 2 ^ fmt.unitExp then r = .inf neg
  else ∃ k : Nat, r = .fin neg k ∧ k < 2 ^ fmt.limitExp ∧ FitsPrecision fmt k ∧
    ∀ v : Nat, FitsPrecision fmt v → v ≠ k →
      |magnitude fmt k - x| ≤ |magnitude fmt v - x| ∧
      (|magnitude fmt k - x| = |magnitude fmt v - x| → EvenSignificand fmt k)

/-- A run that ends here contains no refused step: the premise of a claim about a run (R40). -/
abbrev State.Clean (s : State) : Prop := s.refused = false

end Sys2Proof.Machine
end

