-- ==== Sys2Proof/WellFormed.lean ====
section
/-! DEFINITION. Which words an agent may deliver (spec 30_encoding.md R71 to R77), said field by field and apart from
the decoder. An `Instr` needs no check of its own: its operands are 32-bit values, and the spec gives every 32-bit
operand of forms F and U a meaning (R72; log 21). -/

namespace Sys2Proof

/-- R76: the `RSV` field, bits [31:8], is zero. -/
def rsvClear (w : CmdWord) : Bool := w.extractLsb' 8 24 == 0

/-- R73, R74, R75, R78: the codes an agent may deliver. -/
def codeAllowed (src : Agent) (code : Nat) : Bool :=
  match src with
  | .host => 0x01 ≤ code && code ≤ 0x09
  | .timer => code == 0x80

/-- The word's code is one its agent may deliver. -/
def opcAllowed (src : Agent) (w : CmdWord) : Bool := codeAllowed src (w.extractLsb' 0 8).toNat

/-- R72: SETTONE, SETBEEP and TIMEDBEEP carry an operand. -/
def takesOperand (w : CmdWord) : Bool :=
  [0x03, 0x06, 0x09].contains (w.extractLsb' 0 8).toNat

/-- R77: a word of form N has a zero operand. -/
def operandAllowed (w : CmdWord) : Bool := takesOperand w || w.extractLsb' 32 32 == 0

/-- A word the agent may deliver. -/
def wellFormed (src : Agent) (w : CmdWord) : Bool :=
  rsvClear w && opcAllowed src w && operandAllowed w

end Sys2Proof
end

