-- ==== Sys2Proof/Certificates/Slice0/Obligations.lean ====
section
/-! DEFINITION. The statements about the model, from the numbered rules of the spec. -/

open Sys2Proof Sys2Proof.Machine

/-! ### Encoding (30_encoding.md) -/

/-- Decoding the word of an instruction, delivered by its agent, gives the instruction, and so does decoding its eight
bytes, which leaves the bytes after them (R71 to R74, R78, R79): every operand, every instruction. -/
def Obligations.DecodeOfEncodeIsIdentity : Prop :=
  ∀ (i : Instr) (rest : List Byte),
    decode (agentOf i) (encode i) = .ok i ∧
    decodeBytes (agentOf i) (bytesOfWord (encode i) ++ rest) = .ok (i, rest)

/-- A word that decodes is the one word of its instruction, delivered by that instruction's agent (R71 to R78). -/
def Obligations.DecodedWordIsItsEncoding : Prop :=
  ∀ (src : Agent) (w : CmdWord) (i : Instr), decode src w = .ok i → src = agentOf i ∧ w = encode i

/-- The words that decode are exactly those the field rules R71 to R77 allow to the agent. -/
def Obligations.DecodeAcceptsExactlyWellFormedWords : Prop :=
  ∀ (src : Agent) (w : CmdWord), (∃ i, decode src w = .ok i) ↔ wellFormed src w = true

/-- The worked encodings of R82, with the pattern of 67.0 and the bytes of `SETTONE 67.0`. -/
def Obligations.WorkedEncodings : Prop :=
  encode .init = 0x0000000000000001#64 ∧ decode .host 0x0000000000000001#64 = .ok .init ∧
  encode (.settone 0x42860000#32) = 0x4286000000000003#64 ∧
  decode .host 0x4286000000000003#64 = .ok (.settone 0x42860000#32) ∧
  f32 0x42860000#32 = .fin false (67 * 2 ^ 149) ∧
  encode .toneon = 0x0000000000000004#64 ∧ decode .host 0x0000000000000004#64 = .ok .toneon ∧
  encode (.timedbeep 10#32) = 0x0000000A00000009#64 ∧
  decode .host 0x0000000A00000009#64 = .ok (.timedbeep 10#32) ∧
  encode .tick = 0x0000000000000080#64 ∧ decode .timer 0x0000000000000080#64 = .ok .tick ∧
  encode (.setbeep 0x42C80000#32) = 0x42C8000000000006#64 ∧
  decode .host 0x42C8000000000006#64 = .ok (.setbeep 0x42C80000#32) ∧
  f32 0x42C80000#32 = .fin false (100 * 2 ^ 149) ∧
  bytesOfWord (encode (.settone 0x42860000#32)) = [0x03, 0x00, 0x00, 0x00, 0x00, 0x00, 0x86, 0x42]

/-- R79: a byte stream carries words in consecutive groups of eight bytes, least significant byte first. -/
def Obligations.ByteStreamCarriesItsWords : Prop :=
  (∀ ws : List CmdWord, wordsOfBytes (ws.flatMap bytesOfWord) = ws) ∧
  (∀ w : CmdWord, (bytesOfWord w).length = 8) ∧
  ∀ (w : CmdWord) (k : Nat), k < 8 → (bytesOfWord w)[k]? = some (w.extractLsb' (8 * k) 8)

/-- R76: a word whose `RSV` field is not zero is refused with `ReservedBits`, whatever its code and agent. -/
def Obligations.ReservedFieldIsRefused : Prop :=
  ∀ (s : State) (e : Event) (rest : List Event), s.port = e :: rest → e.word.extractLsb' 8 24 ≠ 0 →
    step s = .next { s with port := rest, refused := true, lastRefusal := some .reservedBits }

/-- R75: a word with a reserved code is refused with `ReservedOpcode`, from either agent (after the check of R76). -/
def Obligations.ReservedCodeIsRefused : Prop :=
  ∀ (s : State) (e : Event) (rest : List Event), s.port = e :: rest → e.word.extractLsb' 8 24 = 0 →
    ((e.word.extractLsb' 0 8).toNat = 0 ∨
      (0x0A ≤ (e.word.extractLsb' 0 8).toNat ∧ (e.word.extractLsb' 0 8).toNat ≤ 0x7F) ∨
      (0x81 ≤ (e.word.extractLsb' 0 8).toNat ∧ (e.word.extractLsb' 0 8).toNat ≤ 0xFF)) →
    step s = .next { s with port := rest, refused := true, lastRefusal := some .reservedOpcode }

/-- R77: a word of form N whose operand is not zero is refused with `ReservedBits`. -/
def Obligations.FormNOperandIsRefused : Prop :=
  ∀ (s : State) (e : Event) (rest : List Event), s.port = e :: rest →
    ((e.src = .host ∧ (e.word.extractLsb' 0 8).toNat ∈ [0x01, 0x02, 0x04, 0x05, 0x07, 0x08]) ∨
      (e.src = .timer ∧ (e.word.extractLsb' 0 8).toNat = 0x80)) →
    e.word.extractLsb' 32 32 ≠ 0 →
    step s = .next { s with port := rest, refused := true, lastRefusal := some .reservedBits }

/-- R74: 0x80 is TICK, only the TIMER delivers it, and from the HOST it is refused with `TickFromHost`. -/
def Obligations.TickFromHostIsRefused : Prop :=
  encode .tick = 0x0000000000000080#64 ∧ agentOf .tick = .timer ∧
  decode .timer 0x0000000000000080#64 = .ok .tick ∧
  ∀ (s : State) (w : CmdWord) (rest : List Event), s.port = ⟨.host, w⟩ :: rest →
    w.extractLsb' 8 24 = 0 → w.extractLsb' 0 8 = 0x80#8 →
    step s = .next { s with port := rest, refused := true, lastRefusal := some .tickFromHost }

/-- A word other than TICK from the TIMER is refused with `ReservedOpcode` (R78, R201). -/
def Obligations.NonTickFromTimerIsRefused : Prop :=
  ∀ (s : State) (w : CmdWord) (rest : List Event), s.port = ⟨.timer, w⟩ :: rest →
    w.extractLsb' 8 24 = 0 → w.extractLsb' 0 8 ≠ 0x80#8 →
    step s = .next { s with port := rest, refused := true, lastRefusal := some .reservedOpcode }

/-! ### Steps -/

/-- A step takes the first delivery and performs the instruction it decodes to (R57, R70, R78; the port is the model's
field, log 1). -/
def Obligations.StepRunsTheDecodedInstruction : Prop :=
  ∀ (s : State) (e : Event) (rest : List Event) (i : Instr), s.port = e :: rest →
    decode e.src e.word = .ok i → step s = exec i { s with port := rest }

/-- A step whose word does not decode takes the delivery and sets the flag and the recorded reason, no more (R10, R78;
log 1, log 4). -/
def Obligations.UndecodableWordSetsOnlyTheFlag : Prop :=
  ∀ (s : State) (e : Event) (rest : List Event) (r : RefusalReason), s.port = e :: rest →
    decode e.src e.word = .error r →
    step s = .next { s with port := rest, refused := true, lastRefusal := some r }

/-- The model's choice (log 2): with no delivery pending the TIMER takes its TICK step where it has one, and elsewhere
the state stays. -/
def Obligations.EmptyPortLetsTheTimerTick : Prop :=
  ∀ s : State, s.port = [] →
    (s.active = true → s.carrier = .running → step s = exec .tick s) ∧
    (s.active = false ∨ s.carrier = .idle → step s = .next s)

/-- Every run of any length from any state answers a next state: the block has no fault and every refusal of R201 is a
next state (R10, R200; log 3, log 18). In a state with nothing delivered, and the module inactive or the carrier Idle, the
spec gives no agent a step (R131, R205): that the run goes on there, by an empty step, is the model's choice (log 2). -/
def Obligations.NoRunFaultsOrStops : Prop :=
  ∀ (n : Nat) (s : State), ∃ t, run n s = .next t

/-- A step either leaves the flag and the recorded reason alone, or is a refusal that changes nothing but them and
takes its delivery (R10; log 3, log 4). -/
def Obligations.StepKeepsTheFlagOrOnlyRefuses : Prop :=
  ∀ s t : State, step s = .next t →
    (t.refused = s.refused ∧ t.lastRefusal = s.lastRefusal) ∨
    ∃ r, t = { s with port := s.port.tail, refused := true, lastRefusal := some r }

/-- The flag is false at power-on, set by a step that records a reason, and never cleared by any run (R40). -/
def Obligations.RefusedFlagIsNeverCleared : Prop :=
  State.reset.refused = false ∧
  (∀ s t : State, step s = .next t → t.lastRefusal ≠ s.lastRefusal → t.refused = true) ∧
  ∀ (n : Nat) (s t : State), run n s = .next t → s.refused = true → t.refused = true

/-! ### Lifecycle (42_control.md sections 1 and 2) -/

/-- INIT (R163, R164): in an inactive module it writes the values listed, the duty registers taking some value; in an
active one it is refused with `AlreadyActive`. `draws` and `lastRefusal` are the model's own (log 4, log 5). -/
def Obligations.InitInitialisesAnInactiveModule : Prop :=
  encode .init = 0x01#64 ∧ agentOf .init = .host ∧
  (∀ s : State, s.active = false →
    ∃ (d : Pair Byte) (n : Nat), exec .init s = .next
      { s with
        pin := ⟨.driving, .driving⟩, carrier := .idle, en := ⟨false, false⟩, inc := ⟨0, 0⟩, acc := ⟨0, 0⟩, cnt := 0,
        duty := d, active := true, draws := n }) ∧
  (∀ s : State, s.active = true →
    exec .init s = .next { s with refused := true, lastRefusal := some .alreadyActive })

/-- SHUTDOWN (R166): admitted in every state; it stops the carrier, quiets the lines, ends the session and keeps the
channel fields; outside a session it changes nothing. -/
def Obligations.ShutdownEndsTheSession : Prop :=
  encode .shutdown = 0x02#64 ∧ agentOf .shutdown = .host ∧
  (∀ s : State, exec .shutdown s = .next
    { s with carrier := .idle, pin := ⟨.quiescent, .quiescent⟩, active := false }) ∧
  (∀ s : State, s.Inv → s.active = false → exec .shutdown s = .next s)

/-- R165: after SHUTDOWN, INIT is admitted again and reinitialises the fields. -/
def Obligations.ShutdownAllowsANewInit : Prop :=
  ∀ s : State, ∃ t u, exec .shutdown s = .next t ∧ t.active = false ∧ exec .init t = .next u ∧
    u.active = true ∧ u.carrier = .idle ∧ u.pin = ⟨.driving, .driving⟩ ∧ u.en = ⟨false, false⟩ ∧
    u.inc = ⟨0, 0⟩ ∧ u.acc = ⟨0, 0⟩ ∧ u.cnt = 0 ∧ u.refused = s.refused

/-- R160: INIT is admitted only in an inactive module, SHUTDOWN always, every other command only in an active one,
whatever its operand. -/
def Obligations.AdmissionOfCommands : Prop :=
  (∀ s : State, s.active = true →
    exec .init s = .next { s with refused := true, lastRefusal := some .alreadyActive }) ∧
  (∀ s : State, s.active = false → ∃ t, exec .init s = .next t ∧ t.active = true ∧ t.refused = s.refused) ∧
  (∀ s : State, ∃ t, exec .shutdown s = .next t ∧ t.active = false ∧ t.refused = s.refused) ∧
  (∀ (s : State) (i : Instr), s.active = false → agentOf i = .host → i ≠ .init → i ≠ .shutdown →
    exec i s = .next { s with refused := true, lastRefusal := some .notActive })

/-! ### Frequency (42_control.md section 3, 40_datapath.md section 2) -/

/-- SETTONE (R170): in an active module the increment of TONE becomes the converter's result and nothing else changes;
a refusal of the converter leaves it; outside a session it is refused. EX1: `SETTONE 67.0` gives 43909. -/
def Obligations.SettoneSetsTheToneIncrement : Prop :=
  (∀ bits : Word, (encode (.settone bits)).extractLsb' 0 32 = 0x03#32 ∧
    (encode (.settone bits)).extractLsb' 32 32 = bits ∧ agentOf (.settone bits) = .host) ∧
  (∀ (s : State) (bits v : Word), s.active = true → toIncrement Config.params bits = .ok v →
    exec (.settone bits) s = .next { s with inc := { s.inc with tone := v } }) ∧
  (∀ (s : State) (bits : Word) (r : RefusalReason), s.active = true → toIncrement Config.params bits = .error r →
    exec (.settone bits) s = .next { s with refused := true, lastRefusal := some r }) ∧
  (∀ (s : State) (bits : Word), s.active = false →
    exec (.settone bits) s = .next { s with refused := true, lastRefusal := some .notActive }) ∧
  (∀ fmt : FpFormat, toIncrement (.ex1 fmt) 0x42860000#32 = .ok 43909#32)

/-- SETBEEP (R171), the same for BEEP. EX1: `SETBEEP 200.0` gives 131072. -/
def Obligations.SetbeepSetsTheBeepIncrement : Prop :=
  (∀ bits : Word, (encode (.setbeep bits)).extractLsb' 0 32 = 0x06#32 ∧
    (encode (.setbeep bits)).extractLsb' 32 32 = bits ∧ agentOf (.setbeep bits) = .host) ∧
  (∀ (s : State) (bits v : Word), s.active = true → toIncrement Config.params bits = .ok v →
    exec (.setbeep bits) s = .next { s with inc := { s.inc with beep := v } }) ∧
  (∀ (s : State) (bits : Word) (r : RefusalReason), s.active = true → toIncrement Config.params bits = .error r →
    exec (.setbeep bits) s = .next { s with refused := true, lastRefusal := some r }) ∧
  (∀ (s : State) (bits : Word), s.active = false →
    exec (.setbeep bits) s = .next { s with refused := true, lastRefusal := some .notActive }) ∧
  (∀ fmt : FpFormat, toIncrement (.ex1 fmt) 0x43480000#32 = .ok 131072#32)

/-- For a pattern that is no NaN, no infinity and not negative, the converter answers `v` exactly when the quotient, taken
left to right in `FP_FORMAT`, is finite and its magnitude truncates to `v` (R105). Over all parameters that takes in
negative quotients, of which R105 says nothing: that they convert by their magnitude is the model's choice (log 11), and
valid parameters give none, so that there it is R105 exactly. -/
def Obligations.ConverterTruncatesTheQuotient : Prop :=
  (∀ (p : Params) (bits v : Word),
    toIncrement p bits = .ok v ↔
      ((f32 bits).isNaN = false ∧ (f32 bits).isInf = false ∧ (f32 bits).isNeg = false) ∧
      ∃ (neg : Bool) (k : Nat),
        fdiv p.fmt (fmul p.fmt (fmul p.fmt (toFmt p.fmt (f32 bits)) p.correctionFactor)
          (.fin false (65536 * 2 ^ p.fmt.unitExp))) p.baseFreqHz = .fin neg k ∧
        v.toNat * 2 ^ p.fmt.unitExp ≤ k ∧ k < (v.toNat + 1) * 2 ^ p.fmt.unitExp) ∧
  (∀ fmt : FpFormat, toIncrement (.ex1 fmt) 0x42860000#32 = .ok 43909#32)

/-- `BadFrequency` exactly for a NaN, an infinity or a negative value that is not zero (R106); `IncrementRange` exactly
for the others whose quotient is not a finite value of magnitude below 2^32. Over all parameters that takes in a NaN and
negative quotients, of which R106 says nothing: that a NaN is refused with `IncrementRange`, and that a negative quotient is
judged by its magnitude, are the model's choices (log 11); valid parameters give neither, so that there it is R106. -/
def Obligations.ConverterDomain : Prop :=
  (∀ (p : Params) (bits : Word),
    toIncrement p bits = .error .badFrequency ↔
      bits.extractLsb' 23 8 = 255#8 ∨ (bits.getLsbD 31 = true ∧ bits.extractLsb' 0 31 ≠ 0)) ∧
  (∀ (p : Params) (bits : Word),
    toIncrement p bits = .error .incrementRange ↔
      ¬(bits.extractLsb' 23 8 = 255#8 ∨ (bits.getLsbD 31 = true ∧ bits.extractLsb' 0 31 ≠ 0)) ∧
      ¬∃ (neg : Bool) (k : Nat), conversion p (f32 bits) = .fin neg k ∧ k < 2 ^ (32 + p.fmt.unitExp)) ∧
  (∀ fmt : FpFormat, toIncrement (.ex1 fmt) 0x4AC80000#32 = .error .incrementRange ∧
    toIncrement (.ex1 fmt) 0xBF800000#32 = .error .badFrequency ∧
    toIncrement (.ex1 fmt) 0x80000000#32 = .ok 0#32)

/-- R108: both zeros give increment 0 under every configuration, as does every pattern in the
domain whose quotient is below 1; a channel with
increment 0 keeps its accumulator over a tick, and the sample it last held. -/
def Obligations.ZeroFrequencyFreezesTheChannel : Prop :=
  (∀ p : Params, p.valid = true → toIncrement p 0x00000000#32 = .ok 0 ∧ toIncrement p 0x80000000#32 = .ok 0) ∧
  (∀ (p : Params) (bits : Word) (neg : Bool) (k : Nat),
    (f32 bits).isNaN = false → (f32 bits).isInf = false → (f32 bits).isNeg = false →
    conversion p (f32 bits) = .fin neg k → k < 2 ^ p.fmt.unitExp → toIncrement p bits = .ok 0) ∧
  (∀ fmt : FpFormat, toIncrement (.ex1 fmt) 0x3A83126F#32 = .ok 0) ∧
  (∀ s t : State, exec .tick s = .next t → s.inc.tone = 0 →
    t.acc.tone = s.acc.tone ∧ (s.DutyMatches → t.duty.tone = s.duty.tone)) ∧
  (∀ s t : State, exec .tick s = .next t → s.inc.beep = 0 →
    t.acc.beep = s.acc.beep ∧ (s.DutyMatches → t.duty.beep = s.duty.beep))

/-- R109: for frequencies of 0 or more, the converter is non-decreasing: where the higher one converts, so does the
lower one, to an increment no greater. -/
def Obligations.ConverterIsMonotone : Prop :=
  ∀ (p : Params) (b₁ b₂ v₂ : Word) (n₁ n₂ : Bool) (k₁ k₂ : Nat), p.valid = true →
    f32 b₁ = .fin n₁ k₁ → (f32 b₁).isNeg = false → f32 b₂ = .fin n₂ k₂ → k₁ ≤ k₂ →
    toIncrement p b₂ = .ok v₂ → ∃ v₁, toIncrement p b₁ = .ok v₁ ∧ v₁.toNat ≤ v₂.toNat

/-- The rounding of R9: the result is a value of the format's precision, no such value is nearer to the exact magnitude,
and a magnitude half way between two neighbours goes to the even one; in a format, it overflows to an infinity exactly
from half a step past the largest finite value on (IEEE 754 as log 10 takes it). -/
def Obligations.RoundingIsToNearestEven : Prop :=
  (∀ prec num den : Nat, 0 < prec → 0 < den →
    (∃ m e : Nat, m < 2 ^ prec ∧ roundUnits prec num den = m * 2 ^ e) ∧
    (∀ m e : Nat, m < 2 ^ prec →
      |(roundUnits prec num den : Int) * den - num| ≤ |(m : Int) * 2 ^ e * den - num|) ∧
    (2 * (num % (den * 2 ^ excessBits prec num den)) = den * 2 ^ excessBits prec num den →
      roundUnits prec num den / 2 ^ excessBits prec num den % 2 = 0)) ∧
  ∀ (fmt : FpFormat) (neg : Bool) (num den : Nat), 0 < den →
    roundFp fmt neg num den =
      if (2 ^ fmt.limitExp - 2 ^ (fmt.limitExp - fmt.precision - 1)) * den ≤ num then .inf neg
      else .fin neg (roundUnits fmt.precision num den)

/-- R107: the machine's parameters give 67.0 an increment whose bits [23:16] are zero, so that the source's scenario
writes entry 0 of the table to the duty register of TONE and leaves the carrier Running. -/
def Obligations.SixtySevenHertzWritesEntryZero : Prop :=
  (∃ v : Word, toIncrement Config.params 0x42860000#32 = .ok v ∧ v.extractLsb' 16 8 = 0 ∧
    v.toNat % 2 ^ 24 < 2 ^ 16) ∧
  (∀ v : Word, v.extractLsb' 16 8 = 0 ↔ v.toNat % 2 ^ 24 < 2 ^ 16) ∧
  (Params.ex1 .binary32).meets67 = true ∧ (Params.ex1 .binary64).meets67 = true ∧
  ∀ (s : State) (rest : List Event), s.active = false →
    s.port = trace [.init, .settone 0x42860000#32, .toneon, .tick] ++ rest →
    ∃ t, run 4 s = .next t ∧ t.duty.tone = Config.sineTable 0 ∧ t.carrier = .running ∧ t.refused = s.refused

/-! ### Channels on and off (42_control.md section 4) -/

/-- TONEON (R175): the enable bit of TONE is set and the carrier runs; nothing else changes, the phase in particular. -/
def Obligations.ToneonEnablesAndStarts : Prop :=
  encode .toneon = 0x04#64 ∧ agentOf .toneon = .host ∧
  (∀ s : State, s.active = true →
    exec .toneon s = .next { s with en := { s.en with tone := true }, carrier := .running }) ∧
  (∀ s : State, s.active = false →
    exec .toneon s = .next { s with refused := true, lastRefusal := some .notActive })

/-- TONEOFF (R176): the enable bit of TONE is cleared, the carrier is left, and with BEEP off too the next tick stops
it. -/
def Obligations.ToneoffDisablesAndLeavesTheCarrier : Prop :=
  encode .toneoff = 0x05#64 ∧ agentOf .toneoff = .host ∧
  (∀ s : State, s.active = true →
    exec .toneoff s = .next { s with en := { s.en with tone := false } }) ∧
  (∀ s : State, s.active = false →
    exec .toneoff s = .next { s with refused := true, lastRefusal := some .notActive }) ∧
  (∀ s : State, s.active = true → s.carrier = .running → s.en.beep = false →
    ∃ t u, exec .toneoff s = .next t ∧ t.carrier = .running ∧ exec .tick t = .next u ∧ u.carrier = .idle)

/-- BEEPON (R177): the enable bit of BEEP is set, a countdown is cancelled, the carrier runs. -/
def Obligations.BeeponEnablesCancelsAndStarts : Prop :=
  encode .beepon = 0x07#64 ∧ agentOf .beepon = .host ∧
  (∀ s : State, s.active = true →
    exec .beepon s = .next { s with en := { s.en with beep := true }, cnt := 0, carrier := .running }) ∧
  (∀ s : State, s.active = false →
    exec .beepon s = .next { s with refused := true, lastRefusal := some .notActive })

/-- BEEPOFF (R178): the enable bit of BEEP and the countdown are cleared, the carrier is left, and with TONE off too the
next tick stops it. -/
def Obligations.BeepoffDisablesAndLeavesTheCarrier : Prop :=
  encode .beepoff = 0x08#64 ∧ agentOf .beepoff = .host ∧
  (∀ s : State, s.active = true →
    exec .beepoff s = .next { s with en := { s.en with beep := false }, cnt := 0 }) ∧
  (∀ s : State, s.active = false →
    exec .beepoff s = .next { s with refused := true, lastRefusal := some .notActive }) ∧
  (∀ s : State, s.active = true → s.carrier = .running → s.en.tone = false →
    ∃ t u, exec .beepoff s = .next t ∧ t.carrier = .running ∧ exec .tick t = .next u ∧ u.carrier = .idle)

/-- R185: both off commands leave a state whose channels are off, with no countdown and an Idle carrier. -/
def Obligations.OffCommandsAreIdempotent : Prop :=
  ∀ s : State, s.active = true → s.en = ⟨false, false⟩ → s.cnt = 0 → s.carrier = .idle →
    exec .toneoff s = .next s ∧ exec .beepoff s = .next s

/-! ### Timed beep (42_control.md section 5) -/

/-- TIMEDBEEP (R180): with `N = (d * CARRIER_RATE) div 1000` neither 0 nor 2^32 or more, BEEP is enabled, the countdown
is `N` and the carrier runs; a refusal leaves the state; outside a session it is refused. The instruction is the timed
beep under the machine's parameters; under any parameters that beep does as said, whatever the rate (log 8). EX1:
`TIMEDBEEP 1` loads 25. -/
def Obligations.TimedbeepLoadsTheCountdown : Prop :=
  (∀ d : Word, (encode (.timedbeep d)).extractLsb' 0 32 = 0x09#32 ∧
    (encode (.timedbeep d)).extractLsb' 32 32 = d ∧ agentOf (.timedbeep d) = .host) ∧
  (∀ (s : State) (d : Word), exec (.timedbeep d) s = attempt s (s.timedBeep Config.params d)) ∧
  (∀ (s : State) (p : Params) (d : Word), s.active = true →
    0 < d.toNat * p.carrierRate / 1000 → d.toNat * p.carrierRate / 1000 < 2 ^ 32 →
    attempt s (s.timedBeep p d) = .next
      { s with
        en := { s.en with beep := true }, carrier := .running,
        cnt := BitVec.ofNat 32 (d.toNat * p.carrierRate / 1000) }) ∧
  (∀ (s : State) (p : Params) (d : Word), s.active = true →
    attempt s (s.timedBeep p d) = .next
      (if d = 0 ∨ d.toNat * p.carrierRate / 1000 = 0 then
        { s with refused := true, lastRefusal := some .badDuration }
      else if 2 ^ 32 ≤ d.toNat * p.carrierRate / 1000 then
        { s with refused := true, lastRefusal := some .durationRange }
      else
        { s with
          en := { s.en with beep := true }, carrier := .running,
          cnt := BitVec.ofNat 32 (d.toNat * p.carrierRate / 1000) })) ∧
  (∀ (s : State) (d : Word), s.active = true →
    0 < d.toNat * Config.params.carrierRate / 1000 → d.toNat * Config.params.carrierRate / 1000 < 2 ^ 32 →
    exec (.timedbeep d) s = .next
      { s with
        en := { s.en with beep := true }, carrier := .running,
        cnt := BitVec.ofNat 32 (d.toNat * Config.params.carrierRate / 1000) }) ∧
  (∀ (s : State) (d : Word) (r : RefusalReason), s.active = true → countdownValue Config.params d = .error r →
    exec (.timedbeep d) s = .next { s with refused := true, lastRefusal := some r }) ∧
  (∀ (p : Params) (d : Word), countdownValue p d =
    if d = 0 then .error .badDuration
    else if d.toNat * p.carrierRate / 1000 = 0 then .error .badDuration
    else if d.toNat * p.carrierRate / 1000 < 2 ^ 32 then .ok (BitVec.ofNat 32 (d.toNat * p.carrierRate / 1000))
    else .error .durationRange) ∧
  (∀ (s : State) (d : Word), s.active = false →
    exec (.timedbeep d) s = .next { s with refused := true, lastRefusal := some .notActive }) ∧
  encode (.timedbeep 1#32) = 0x0000000100000009#64 ∧
  (∀ fmt : FpFormat, countdownValue (.ex1 fmt) 1#32 = .ok 25#32)

/-- R182: `BadDuration` exactly where `N = 0`, which for `d > 0` needs a rate below 1000; `DurationRange` exactly where
`N` is 2^32 or more; a refused TIMEDBEEP changes no architectural field; the bound under EX1. -/
def Obligations.TimedbeepRefusals : Prop :=
  (∀ (p : Params) (d : Word),
    countdownValue p d = .error .badDuration ↔ d = 0 ∨ d.toNat * p.carrierRate / 1000 = 0) ∧
  (∀ (p : Params) (d : Word), d ≠ 0 → d.toNat * p.carrierRate / 1000 = 0 → p.carrierRate < 1000) ∧
  (∀ (p : Params) (d : Word),
    countdownValue p d = .error .durationRange ↔ 2 ^ 32 ≤ d.toNat * p.carrierRate / 1000) ∧
  (∀ (fmt : FpFormat) (d : Word),
    countdownValue (.ex1 fmt) d = .error .durationRange ↔ 167772160 ≤ d.toNat) ∧
  (∀ (s : State) (d : Word) (r : RefusalReason), s.active = true → countdownValue Config.params d = .error r →
    exec (.timedbeep d) s = .next { s with refused := true, lastRefusal := some r })

/-- The countdown loaded is exact, with no intermediate overflow, and its ticks never last longer than the duration at
the nominal rate and less than one tick shorter (R181). -/
def Obligations.CountdownIsExact : Prop :=
  ∀ (p : Params) (d v : Word), countdownValue p d = .ok v →
    v.toNat * 1000 ≤ d.toNat * p.carrierRate ∧ d.toNat * p.carrierRate < (v.toNat + 1) * 1000

/-! ### The carrier tick (41_tick.md, 40_datapath.md section 3) -/

/-- TICK (R130), where the TIMER has its step: both accumulators advance by their increments modulo 2^32, both duty
registers take the samples at bits [23:16] of the advanced accumulators, a countdown is decremented and turns BEEP off
on reaching 0, and with both channels then off the carrier stops; nothing else changes. -/
def Obligations.TickAdvancesCountsAndShutsDown : Prop :=
  encode .tick = 0x80#64 ∧ agentOf .tick = .timer ∧
  ∀ s : State, s.active = true → s.carrier = .running →
    exec .tick s = .next
      { s with
        acc := ⟨s.acc.tone + s.inc.tone, s.acc.beep + s.inc.beep⟩
        duty := ⟨Config.sineTable ((s.acc.tone + s.inc.tone).extractLsb' 16 8),
                 Config.sineTable ((s.acc.beep + s.inc.beep).extractLsb' 16 8)⟩
        cnt := if s.cnt = 0 then 0 else s.cnt - 1
        en := ⟨s.en.tone, if s.cnt = 1 then false else s.en.beep⟩
        carrier :=
          if s.en.tone = true ∨ (if s.cnt = 1 then false else s.en.beep) = true then .running else .idle }

/-- R131: the TIMER has a TICK step exactly while the module is active and the carrier runs; a TICK listed elsewhere is
refused with `TickWhileIdle`. -/
def Obligations.TickNeedsARunningCarrier : Prop :=
  (∀ s : State, s.tickEnabled = true ↔ s.active = true ∧ s.carrier = .running) ∧
  (∀ s : State, s.active = true → s.carrier = .running →
    ∃ t, exec .tick s = .next t ∧ t.refused = s.refused ∧ t.lastRefusal = s.lastRefusal) ∧
  (∀ s : State, s.active = false ∨ s.carrier = .idle →
    exec .tick s = .next { s with refused := true, lastRefusal := some .tickWhileIdle })

/-- `ddsStep` (R110): addition modulo 2^32, the sample at bits [23:16] of the sum; a zero increment keeps the
accumulator; the index moves by the increment's bits [23:16] and the carry out of bits [15:0]. -/
def Obligations.DdsStepLaw : Prop :=
  (∀ a i : Word, (ddsStep a i).1 = BitVec.ofNat 32 ((a.toNat + i.toNat) % 2 ^ 32) ∧
    (ddsStep a i).2 = Config.sineTable ((ddsStep a i).1.extractLsb' 16 8)) ∧
  (∀ a : Word, (ddsStep a 0).1 = a) ∧
  (∀ a i : Word, (ddsStep a i).1.extractLsb' 16 8 =
    a.extractLsb' 16 8 + i.extractLsb' 16 8 +
      if 2 ^ 16 ≤ a.toNat % 2 ^ 16 + i.toNat % 2 ^ 16 then 1#8 else 0#8) ∧
  ddsStep 0 65536 = (65536, Config.sineTable 1)

/-- The phase law (first sentence of R112): after `n` ticks with the increments unchanged each accumulator is
`(a0 + n*i) mod 2^32` and the sample selected is at `((a0 + n*i) mod 2^24)[23:16]`. The premise is that every one of the
ticks is admitted: TONE is on, or BEEP is, with no countdown or one of `n` or more. The carrier still runs after them, but
where BEEP alone kept it and its countdown ends at the `n`-th. -/
def Obligations.PhaseLaw : Prop :=
  ∀ (n : Nat) (s : State) (rest : List Event), s.active = true → s.carrier = .running →
    s.en.tone = true ∨ (s.en.beep = true ∧ (s.cnt = 0 ∨ n ≤ s.cnt.toNat)) →
    s.port = List.replicate n (eventOf .tick) ++ rest →
    ∃ t, run n s = .next t ∧ t.port = rest ∧ t.inc = s.inc ∧ t.refused = s.refused ∧
      (s.en.tone = true ∨ s.cnt = 0 ∨ n < s.cnt.toNat → t.carrier = .running) ∧
      (s.en.tone = false → s.cnt ≠ 0 → n = s.cnt.toNat → t.carrier = .idle) ∧
      t.acc.tone.toNat = (s.acc.tone.toNat + n * s.inc.tone.toNat) % 2 ^ 32 ∧
      t.acc.beep.toNat = (s.acc.beep.toNat + n * s.inc.beep.toNat) % 2 ^ 32 ∧
      (0 < n →
        t.duty.tone = Config.sineTable
          (BitVec.ofNat 8 ((s.acc.tone.toNat + n * s.inc.tone.toNat) % 2 ^ 24 / 2 ^ 16)) ∧
        t.duty.beep = Config.sineTable
          (BitVec.ofNat 8 ((s.acc.beep.toNat + n * s.inc.beep.toNat) % 2 ^ 24 / 2 ^ 16)))

/-- R113: advancing an accumulator `2^32 / i` times by an increment `i` that divides 2^32 returns it to its start. -/
def Obligations.WraparoundClosure : Prop :=
  ∀ a i : Word, i ≠ 0 → i.toNat ∣ 2 ^ 32 → (fun x : Word => (ddsStep x i).1)^[2 ^ 32 / i.toNat] a = a

/-- R135: with a countdown of `N` loaded, and with no later BEEPON, BEEPOFF, TIMEDBEEP, SHUTDOWN or INIT, BEEP stays
enabled after each of the first `N - 1` ticks and is disabled by the `N`-th, whatever the other commands between them do;
if TONE is off at that tick, the same tick stops the carrier, else it runs on. Said of every state that holds a countdown,
and of every state in which TIMEDBEEP loads one. -/
def Obligations.TimedBeepEndsAtItsTick : Prop :=
  (∀ (s : State) (is : List Instr) (rest : List Event) (n : Nat), s.active = true → s.carrier = .running →
    s.en.beep = true → n = s.cnt.toNat → 0 < n →
    (∀ i ∈ is, i = .tick ∨ i = .toneon ∨ i = .toneoff ∨ (∃ b, i = .settone b) ∨ ∃ b, i = .setbeep b) →
    s.port = trace is ++ rest →
    ∃ t, run is.length s = .next t ∧
      (is.count .tick < n → t.en.beep = true ∧ t.cnt.toNat = n - is.count .tick ∧ t.carrier = .running) ∧
      (n ≤ is.count .tick → t.en.beep = false ∧ t.cnt = 0) ∧
      (is.count .tick = n → is.getLast? = some .tick → t.carrier = if t.en.tone then .running else .idle)) ∧
  ∀ (s : State) (d : Word) (is : List Instr) (rest : List Event) (n : Nat), s.active = true →
    n = d.toNat * Config.params.carrierRate / 1000 → 0 < n → n < 2 ^ 32 →
    (∀ i ∈ is, i = .tick ∨ i = .toneon ∨ i = .toneoff ∨ (∃ b, i = .settone b) ∨ ∃ b, i = .setbeep b) →
    s.port = trace (.timedbeep d :: is) ++ rest →
    ∃ t, run (is.length + 1) s = .next t ∧
      (is.count .tick < n → t.en.beep = true ∧ t.cnt.toNat = n - is.count .tick ∧ t.carrier = .running) ∧
      (n ≤ is.count .tick → t.en.beep = false ∧ t.cnt = 0) ∧
      (is.count .tick = n → is.getLast? = some .tick → t.carrier = if t.en.tone then .running else .idle)

/-- R136: with both channels off while the carrier runs, the carrier stays Running until the next TICK, which performs
a full tick and then stops it; and BEEPON then BEEPOFF with TONE off stops the carrier at the tick after them. -/
def Obligations.CarrierStopsAtTheNextTick : Prop :=
  (∀ (s : State) (is : List Instr) (rest : List Event), s.active = true → s.carrier = .running →
    s.en = ⟨false, false⟩ →
    (∀ i ∈ is, i = .toneoff ∨ i = .beepoff ∨ (∃ b, i = .settone b) ∨ ∃ b, i = .setbeep b) →
    s.port = trace (is ++ [.tick]) ++ rest →
    ∃ t u, run is.length s = .next t ∧ t.carrier = .running ∧ t.acc = s.acc ∧
      run (is.length + 1) s = .next u ∧ u.carrier = .idle ∧
      u.acc = ⟨t.acc.tone + t.inc.tone, t.acc.beep + t.inc.beep⟩ ∧ u.DutyMatches) ∧
  (∀ (s : State) (rest : List Event), s.active = true → s.en.tone = false →
    s.port = trace [.beepon, .beepoff, .tick] ++ rest →
    ∃ t u, run 2 s = .next t ∧ t.carrier = .running ∧ run 3 s = .next u ∧ u.carrier = .idle)

/-- R116: a TICK makes the duty registers the samples at bits [23:16] of the accumulators, and every step but an
admitted INIT (the one step that makes an inactive module active) keeps them so. -/
def Obligations.DutyFollowsPhase : Prop :=
  (∀ s t : State, s.active = true → s.carrier = .running → exec .tick s = .next t → t.DutyMatches) ∧
  (∀ s t : State, s.DutyMatches → step s = .next t → (t.active = true → s.active = true) → t.DutyMatches)

/-- R111: what a step does to one channel's accumulator, increment and duty register does not depend on the other
channel's. -/
def Obligations.ChannelsAreIndependent : Prop :=
  ∀ s₁ s₂ t₁ t₂ : State, s₁.port = s₂.port → s₁.active = s₂.active → s₁.carrier = s₂.carrier →
    s₁.draws = s₂.draws → step s₁ = .next t₁ → step s₂ = .next t₂ →
    (s₁.acc.tone = s₂.acc.tone → s₁.inc.tone = s₂.inc.tone → s₁.duty.tone = s₂.duty.tone →
      t₁.acc.tone = t₂.acc.tone ∧ t₁.inc.tone = t₂.inc.tone ∧ t₁.duty.tone = t₂.duty.tone) ∧
    (s₁.acc.beep = s₂.acc.beep → s₁.inc.beep = s₂.inc.beep → s₁.duty.beep = s₂.duty.beep →
      t₁.acc.beep = t₂.acc.beep ∧ t₁.inc.beep = t₂.inc.beep ∧ t₁.duty.beep = t₂.duty.beep)

/-! ### The whole machine (10_state.md, 60_exceptions.md) -/

/-- Every step keeps the invariants I1 to I4 of R33, from every state that meets them. -/
def Obligations.StepKeepsTheStateInvariant : Prop :=
  ∀ s t : State, s.Inv → step s = .next t → t.Inv

/-- The reset state meets I1 to I4. That it meets I2 rests on the model's choice of zero and false for the fields the
spec leaves unspecified at power-on (log 6). -/
def Obligations.ResetMeetsTheStateInvariant : Prop := State.reset.Inv

/-- R33: in every state reached from a power-on state, whatever its unspecified fields hold, I1, I3 and I4 hold, and I2
holds from the first INIT on; the converse of I1 holds after a TICK. -/
def Obligations.ReachableStatesKeepTheInvariants : Prop :=
  ∀ (s t : State) (n : Nat), s.PowerOn → run n s = .next t →
    t.CarrierServes ∧ t.IdleOutside ∧ t.PinsFollow ∧
    (t.active = true → ∀ (m : Nat) (u : State), run m t = .next u → u.CountdownOwned) ∧
    (∀ u : State, t.active = true → t.carrier = .running → exec .tick t = .next u → u.carrier = .running →
      u.en.tone = true ∨ u.en.beep = true)

/-- R36: the reset state has the power-on values, and the fields left unspecified at power-on are read by no step before
INIT overwrites them: runs from two power-on states that differ in them agree in every other field, and in every field while the module is active. -/
def Obligations.UnspecifiedPowerOnFieldsAreNeverRead : Prop :=
  State.reset.PowerOn ∧
  ∀ (s₁ s₂ t₁ t₂ : State) (n : Nat), s₁.PowerOn → s₂.PowerOn → s₁.port = s₂.port → s₁.draws = s₂.draws →
    run n s₁ = .next t₁ → run n s₂ = .next t₂ →
    t₁.active = t₂.active ∧ t₁.carrier = t₂.carrier ∧ t₁.pin = t₂.pin ∧ t₁.refused = t₂.refused ∧
    (t₁.active = true → t₁.observe = t₂.observe)

/-- The record S0 to S13, the delivery and the free values drawn determine the next record: nothing else is state
(R20, R35; the reason recorded by the model is never read, log 4). -/
def Obligations.RecordDeterminesTheNextRecord : Prop :=
  ∀ s₁ s₂ t₁ t₂ : State, s₁.observe = s₂.observe → s₁.port = s₂.port → s₁.draws = s₂.draws →
    step s₁ = .next t₁ → step s₂ = .next t₂ →
    t₁.observe = t₂.observe ∧ t₁.port = t₂.port ∧ t₁.draws = t₂.draws

/-- R225: the carrier leaves Idle only through TONEON, BEEPON or TIMEDBEEP in an active module, enters it only at the
end of a TICK with both channels off, by INIT or by SHUTDOWN. The third clause, that with no delivery a step leaves an Idle
block as it is, is the model's choice (log 2). -/
def Obligations.CarrierStartsAndStopsOnlyAsStated : Prop :=
  (∀ s t : State, step s = .next t → s.carrier = .idle → t.carrier = .running →
    s.active = true ∧ (s.performs .toneon ∨ s.performs .beepon ∨ ∃ d, s.performs (.timedbeep d))) ∧
  (∀ s t : State, step s = .next t → s.carrier = .running → t.carrier = .idle →
    (s.performs .tick ∧ t.en = ⟨false, false⟩) ∨ s.performs .init ∨ s.performs .shutdown) ∧
  (∀ s : State, s.carrier = .idle → s.port = [] → step s = .next s)

/-- The "written by" column of R20: a step that changes a field performs one of the instructions that write it; and one
that changes S13, the flag `refused`, is a refused step, which changes no other field of the record (R10; the port and the
reason are the model's own, log 1, log 4). -/
def Obligations.FieldsChangeOnlyByTheirWriters : Prop :=
  ∀ s t : State, step s = .next t →
    (t.active ≠ s.active → s.performs .init ∨ s.performs .shutdown) ∧
    (t.carrier ≠ s.carrier → s.performs .init ∨ s.performs .shutdown ∨ s.performs .toneon ∨ s.performs .beepon ∨
      (∃ d, s.performs (.timedbeep d)) ∨ s.performs .tick) ∧
    (t.pin ≠ s.pin → s.performs .init ∨ s.performs .shutdown) ∧
    (t.en.tone ≠ s.en.tone → s.performs .init ∨ s.performs .toneon ∨ s.performs .toneoff) ∧
    (t.en.beep ≠ s.en.beep → s.performs .init ∨ s.performs .beepon ∨ s.performs .beepoff ∨
      (∃ d, s.performs (.timedbeep d)) ∨ s.performs .tick) ∧
    (t.inc.tone ≠ s.inc.tone → s.performs .init ∨ ∃ b, s.performs (.settone b)) ∧
    (t.inc.beep ≠ s.inc.beep → s.performs .init ∨ ∃ b, s.performs (.setbeep b)) ∧
    (t.acc ≠ s.acc → s.performs .init ∨ s.performs .tick) ∧
    (t.duty ≠ s.duty → s.performs .init ∨ s.performs .tick) ∧
    (t.cnt ≠ s.cnt → s.performs .init ∨ s.performs .beepon ∨ s.performs .beepoff ∨
      (∃ d, s.performs (.timedbeep d)) ∨ s.performs .tick) ∧
    (t.refused ≠ s.refused →
      ∃ r, t = { s with port := s.port.tail, refused := true, lastRefusal := some r })

/-- The derived channel modes of R32. -/
def Obligations.ChannelModesAreDerived : Prop :=
  ∀ s : State,
    (s.mode .tone = .channelOn ↔ s.en.tone = true) ∧ (s.mode .tone = .channelOff ↔ s.en.tone = false) ∧
    (s.mode .beep = .channelTimedOn ↔ s.en.beep = true ∧ s.cnt ≠ 0) ∧
    (s.mode .beep = .channelOn ↔ s.en.beep = true ∧ s.cnt = 0) ∧
    (s.mode .beep = .channelOff ↔ s.en.beep = false)

/-- `State.lineDuty`, the model's own definition (log 20), gives the duty value of a line exactly while the channel is
enabled and the line drives, and none after SHUTDOWN. The spec says 'only while' (R27, R115) and does not give the instant
at which a value reaches the pin (N40-3). -/
def Obligations.LineNeedsEnableAndDrive : Prop :=
  (∀ (s : State) (c : Channel) (v : Byte), s.lineDuty c = some v ↔
    s.en.get c = true ∧ s.pin.get c = .driving ∧ s.duty.get c = v) ∧
  (∀ (s t : State) (c : Channel), exec .shutdown s = .next t → t.lineDuty c = none)

/-! ### Assembler (30_encoding.md section 5) -/

/-- A text with the deliveries of rows 1 to 6 of program P1 of 95_test_vectors.md (not of row 7, its last TICK), with a
comment and mixed case, assembles to their words. TICK as a line of its own and the spacing are the model's choices
(log 16). -/
def Obligations.AssembledProgramHasItsWords : Prop :=
  assemble "INIT\nSetTone 100.0 ; hertz\ntoneOn\nTICKS 3\nTONEOFF\nTICK".toList = .ok
    [⟨.host, 0x0000000000000001#64⟩, ⟨.host, 0x42C8000000000003#64⟩, ⟨.host, 0x0000000000000004#64⟩,
     ⟨.timer, 0x0000000000000080#64⟩, ⟨.timer, 0x0000000000000080#64⟩, ⟨.timer, 0x0000000000000080#64⟩,
     ⟨.host, 0x0000000000000005#64⟩, ⟨.timer, 0x0000000000000080#64⟩]

/-- `TICKS n` stands for `n` consecutive TICK events, `TICKS 0` for nothing (R81): the line of TICKS and any numeral
assembles to that many deliveries of the TICK word by the TIMER. R81 calls `n` only an unsigned integer; that it is written
in decimal digits or as `0x` and hexadecimal digits of either case is the model's choice (log 16). -/
def Obligations.TicksStandForTickEvents : Prop :=
  (∀ ds : List Nat, ds ≠ [] → (∀ d ∈ ds, d < 10) →
    assembleLine ("TICKS ".toList ++ ds.map Nat.digitChar) =
      .ok (List.replicate (Nat.ofDigits 10 ds.reverse) ⟨.timer, 0x0000000000000080#64⟩)) ∧
  (∀ (cs : List Char) (ds : List Nat), cs ≠ [] → cs.map hexDigit = ds.map some →
    assembleLine ("TICKS 0x".toList ++ cs) =
      .ok (List.replicate (Nat.ofDigits 16 ds.reverse) ⟨.timer, 0x0000000000000080#64⟩)) ∧
  (∀ (x : List Char) (n : Nat), asmNat x = some n →
    asmApply .ticks [x] = .ok (List.replicate n ⟨.timer, 0x0000000000000080#64⟩)) ∧
  assembleLine "TICKS 0".toList = .ok []

/-! ### Floating point and literals (00_scope.md R9, 30_encoding.md R80) -/

/-- `fmul` and `fdiv` (R9): of finite values they are the exact product and the exact quotient, rounded to nearest with
ties to even, the sign being the exclusive or of the signs; and the special values are those of IEEE 754 (log 10). -/
def Obligations.ArithmeticIsTheRoundedExactResult : Prop :=
  (∀ (fmt : FpFormat) (s t : Bool) (j k : Nat),
    IsRounded fmt (s != t) (magnitude fmt j * magnitude fmt k) (fmul fmt (.fin s j) (.fin t k))) ∧
  (∀ (fmt : FpFormat) (s t : Bool) (j k : Nat), k ≠ 0 →
    IsRounded fmt (s != t) (magnitude fmt j / magnitude fmt k) (fdiv fmt (.fin s j) (.fin t k))) ∧
  (∀ (fmt : FpFormat) (neg : Bool) (x : ℚ) (r r' : Fp), IsRounded fmt neg x r → IsRounded fmt neg x r' → r = r') ∧
  (∀ (fmt : FpFormat) (x y : Fp), fmul fmt x y = .nan ↔
    x = .nan ∨ y = .nan ∨ (x.isInf = true ∧ ∃ t, y = .fin t 0) ∨ (y.isInf = true ∧ ∃ s, x = .fin s 0)) ∧
  (∀ (fmt : FpFormat) (x y : Fp), fdiv fmt x y = .nan ↔
    x = .nan ∨ y = .nan ∨ (x.isInf = true ∧ y.isInf = true) ∨ ((∃ s, x = .fin s 0) ∧ ∃ t, y = .fin t 0)) ∧
  (∀ (fmt : FpFormat) (s t : Bool) (k : Nat),
    fmul fmt (.inf s) (.inf t) = .inf (s != t) ∧
    fdiv fmt (.inf s) (.fin t k) = .inf (s != t) ∧ fdiv fmt (.fin s k) (.inf t) = .fin (s != t) 0 ∧
    (k ≠ 0 → fmul fmt (.inf s) (.fin t k) = .inf (s != t) ∧ fmul fmt (.fin s k) (.inf t) = .inf (s != t) ∧
      fdiv fmt (.fin s k) (.fin t 0) = .inf (s != t)))

/-- The values of form-F literals (R80). A pattern that is no NaN is the encoding of the value it reads as, and a binary32
value is what its encoding reads as. `#0x` and eight hexadecimal digits give the pattern verbatim. A decimal number gives
the encoding of its value rounded to binary32, to nearest with ties to even (log 10); that it may end without a point, and
begin with a minus sign, is the model's choice (log 16), as is the case of the hexadecimal letters. -/
def Obligations.FloatLiteralsHaveTheirValues : Prop :=
  (∀ bits : Word, (f32 bits).isNaN = false → encodeF32 (f32 bits) = bits) ∧
  (∀ (neg : Bool) (k : Nat), k < 2 ^ 277 → FitsPrecision .binary32 k →
    f32 (encodeF32 (.fin neg k)) = .fin neg k) ∧
  (∀ neg : Bool, f32 (encodeF32 (.inf neg)) = .inf neg) ∧ f32 (encodeF32 .nan) = .nan ∧
  (∀ (cs : List Char) (ds : List Nat), cs.length = 8 → cs.map hexDigit = ds.map some →
    asmFloat ('#' :: '0' :: 'x' :: cs) = some (BitVec.ofNat 32 (Nat.ofDigits 16 ds.reverse))) ∧
  (∀ d : Nat, d < 16 → hexDigit (Nat.digitChar d) = some d ∧ hexDigit (Nat.digitChar d).toUpper = some d) ∧
  (∀ ds fs : List Nat, ds ≠ [] → fs ≠ [] → (∀ d ∈ ds ++ fs, d < 10) →
    ∃ r, IsRounded .binary32 false (Nat.ofDigits 10 (ds ++ fs).reverse / 10 ^ fs.length) r ∧
      asmFloat (ds.map Nat.digitChar ++ '.' :: fs.map Nat.digitChar) = some (encodeF32 r)) ∧
  (∀ ds : List Nat, ds ≠ [] → (∀ d ∈ ds, d < 10) →
    ∃ r, IsRounded .binary32 false (Nat.ofDigits 10 ds.reverse) r ∧
      asmFloat (ds.map Nat.digitChar) = some (encodeF32 r)) ∧
  (∀ ds fs : List Nat, ds ≠ [] → (∀ d ∈ ds ++ fs, d < 10) →
    ∃ r, IsRounded .binary32 true (Nat.ofDigits 10 (ds ++ fs).reverse / 10 ^ fs.length) r ∧
      asmFloat ('-' :: ds.map Nat.digitChar ++ '.' :: fs.map Nat.digitChar) = some (encodeF32 r))

/-- The text of any list of instructions, one line each with form-F operands as `#0x` patterns and form-U operands as `0x`
integers, assembles to their words delivered by their agents; the case of a mnemonic does not matter, the source's call
names are aliases, and `;` starts a comment (R80). TICK as a line, and the call names in any case, are the model's choices
(log 16). -/
def Obligations.AssemblerReadsEveryInstruction : Prop :=
  (∀ i : Instr, assembleLine (lineOf i) = .ok [eventOf i]) ∧
  (∀ is : List Instr, assemble (textOf is) = .ok (trace is)) ∧
  (∀ a b : List Char, a.map Char.toLower = b.map Char.toLower → asmOp a = asmOp b) ∧
  (asmOp "init".toList = some (.plain .init) ∧ asmOp "shutdown".toList = some (.plain .shutdown) ∧
    asmOp "setToneFrequency".toList = some .settone ∧ asmOp "toneOn".toList = some (.plain .toneon) ∧
    asmOp "toneOff".toList = some (.plain .toneoff) ∧ asmOp "setBeepFrequency".toList = some .setbeep ∧
    asmOp "beepOn".toList = some (.plain .beepon) ∧ asmOp "beepOff".toList = some (.plain .beepoff) ∧
    asmOp "timedBeep".toList = some .timedbeep) ∧
  ∀ line comment : List Char, assembleLine (line ++ ';' :: comment) = assembleLine line

/-- The values of form-U integers (R80): TIMEDBEEP and a decimal numeral assembles to its word with the number the digits
spell in base 10, TIMEDBEEP and a `0x` numeral with the number they spell in base 16. That a number past the 32 bits of the
operand is an error, and that hexadecimal letters may be of either case, are the model's choices (log 16). -/
def Obligations.IntegerLiteralsHaveTheirValues : Prop :=
  (∀ ds : List Nat, ds ≠ [] → (∀ d ∈ ds, d < 10) →
    asmNat (ds.map Nat.digitChar) = some (Nat.ofDigits 10 ds.reverse) ∧
    assembleLine ("TIMEDBEEP ".toList ++ ds.map Nat.digitChar) =
      if Nat.ofDigits 10 ds.reverse < 2 ^ 32 then
        .ok [⟨.host, encode (.timedbeep (BitVec.ofNat 32 (Nat.ofDigits 10 ds.reverse)))⟩]
      else .error .badOperand) ∧
  (∀ (cs : List Char) (ds : List Nat), cs ≠ [] → cs.map hexDigit = ds.map some →
    asmNat ('0' :: 'x' :: cs) = some (Nat.ofDigits 16 ds.reverse) ∧
    assembleLine ("TIMEDBEEP 0x".toList ++ cs) =
      if Nat.ofDigits 16 ds.reverse < 2 ^ 32 then
        .ok [⟨.host, encode (.timedbeep (BitVec.ofNat 32 (Nat.ofDigits 16 ds.reverse)))⟩]
      else .error .badOperand) ∧
  assembleLine "TIMEDBEEP 10".toList = .ok [⟨.host, 0x0000000A00000009#64⟩]
end

