-- ==== Sys2Proof/Laws/Assembler.lean ====
section
/-! SUPPORT. What the printing and the reading of digits do, said once. -/

namespace Sys2Proof.Machine

@[simp] theorem digitsValue_nil (base acc : Nat) : digitsValue base [] acc = some acc := rfl

/-- A printed digit reads as itself. -/
theorem hexDigit_digitChar : ∀ d < 16, hexDigit (Nat.digitChar d) = some d := by decide

/-- A printed digit is no white space and starts no comment. -/
theorem digitChar_plain :
    ∀ d < 16, (Nat.digitChar d).isWhitespace = false ∧ Nat.digitChar d ≠ ';' ∧ Nat.digitChar d ≠ '\n' := by decide

/-- Digits read one part after the other. -/
theorem digitsValue_append (base : Nat) (cs ds : List Char) (acc : Nat) :
    digitsValue base (cs ++ ds) acc = (digitsValue base cs acc).bind (digitsValue base ds) := by
  induction cs generalizing acc with
  | nil => rfl
  | cons c cs ih =>
    simp only [List.cons_append, digitsValue]
    cases hexDigit c with
    | none => rfl
    | some v =>
      simp only
      split
      · exact ih _
      · rfl

/-- Digits read as the number they spell, most significant first. -/
theorem digitsValue_of_digits {base : Nat} {cs : List Char} {ds : List Nat} (acc : Nat)
    (h : cs.map hexDigit = ds.map some) (hd : ∀ d ∈ ds, d < base) :
    digitsValue base cs acc = some (acc * base ^ ds.length + Nat.ofDigits base ds.reverse) := by
  induction cs generalizing ds acc with
  | nil =>
    cases ds with
    | nil => simp
    | cons d ds => simp at h
  | cons c cs ih =>
    cases ds with
    | nil => simp at h
    | cons d ds =>
      simp only [List.map_cons, List.cons.injEq] at h
      simp only [digitsValue, h.1, hd d List.mem_cons_self, if_true]
      rw [ih _ h.2 fun x hx => hd x (List.mem_cons_of_mem _ hx)]
      simp only [List.reverse_cons, Nat.ofDigits_append, List.length_reverse, Nat.ofDigits_singleton, List.length_cons]
      congr 1
      ring

@[simp] theorem hexText_length (n w : Nat) : (hexText n w).length = n := by
  induction n generalizing w with
  | zero => rfl
  | succ n ih => simp [hexText, ih]

/-- Every character of a printed number is one of a digit. -/
theorem hexText_mem {n w : Nat} {c : Char} (h : c ∈ hexText n w) : ∃ d < 16, c = Nat.digitChar d := by
  induction n generalizing w with
  | zero => cases h
  | succ n ih =>
    rcases List.mem_append.1 h with h | h
    · exact ih h
    · exact ⟨w % 16, Nat.mod_lt _ (by decide), List.mem_singleton.1 h⟩

/-- A printed number reads as its last `n` digits. -/
theorem digitsValue_hexText (n w acc : Nat) :
    digitsValue 16 (hexText n w) acc = some (acc * 16 ^ n + w % 16 ^ n) := by
  induction n generalizing w acc with
  | zero => simp [hexText, Nat.mod_one]
  | succ n ih =>
    rw [hexText, digitsValue_append, ih]
    have h : w % 16 < 16 := Nat.mod_lt _ (by decide)
    simp only [Option.bind_some, digitsValue, hexDigit_digitChar _ h, h, if_true, Nat.pow_succ]
    congr 1
    have := Nat.mod_mul (x := w) (a := 16) (b := 16 ^ n)
    rw [Nat.mul_comm (16 ^ n) 16, this]
    ring

end Sys2Proof.Machine
end

