-- ==== Sys2Proof/Laws/Converter.lean ====
section
/-! SUPPORT. The parameters of the machine meet their constraints, and what the converter and the countdown answer. -/

namespace Sys2Proof

/-- EX1 meets the constraints in both formats (R107, D19). -/
theorem Params.ex1_valid (fmt : FpFormat) : (Params.ex1 fmt).valid = true := by
  cases fmt <;> decide +kernel

/-- The machine's parameters meet the constraints of R6 and R107, whatever they are. -/
theorem Config.params_valid : Config.params.valid = true := by
  unfold Config.params
  split
  · assumption
  · exact Params.ex1_valid _

/-- What the constraints say, one by one. -/
theorem Params.valid_iff (p : Params) :
    p.valid = true ↔ 0 < p.carrierRate ∧ isPositiveFinite p.fmt p.correctionFactor = true ∧
      isPositiveFinite p.fmt p.baseFreqHz = true ∧ p.meets67 = true := by
  simp only [Params.valid, Bool.and_eq_true, decide_eq_true_eq, and_assoc]

/-- The converter refuses a pattern outside its domain, and else truncates the quotient. -/
theorem toIncrement_cases (p : Params) (bits : Word) :
    (((f32 bits).isNaN || (f32 bits).isInf || (f32 bits).isNeg) = true ∧
      toIncrement p bits = .error .badFrequency) ∨
    (((f32 bits).isNaN || (f32 bits).isInf || (f32 bits).isNeg) = false ∧
      toIncrement p bits = truncIncrement p.fmt (conversion p (f32 bits))) := by
  unfold toIncrement
  cases h : ((f32 bits).isNaN || (f32 bits).isInf || (f32 bits).isNeg) <;> simp [h]

/-- A countdown that is loaded is the exact quotient, neither zero nor past 32 bits. -/
theorem countdownValue_ok {p : Params} {d v : Word} (h : countdownValue p d = .ok v) :
    0 < countdownTicks p d ∧ countdownTicks p d < 2 ^ 32 ∧ v.toNat = countdownTicks p d := by
  unfold countdownValue at h
  split at h
  · cases h
  · split at h
    · cases h
    · split at h
      · cases h
      · rename_i h0 hlt
        cases h
        refine ⟨Nat.pos_of_ne_zero h0, Nat.lt_of_not_le hlt, ?_⟩
        simpa using Nat.mod_eq_of_lt (Nat.lt_of_not_le hlt)

end Sys2Proof
end

