-- ==== Sys2Proof/Laws/Decode.lean ====
section
/-! SUPPORT. The fields of a packed word, and the rows of the opcode map. -/

namespace Sys2Proof

theorem opcField_packWord (opc : Byte) (opnd : Word) : opcField (packWord opc opnd) = opc := by
  apply BitVec.eq_of_getLsbD_eq
  intro i hi
  have h : i < 32 := by omega
  have h' : i < 64 := by omega
  simp [opcField, packWord, hi, h, h']

theorem rsvField_packWord (opc : Byte) (opnd : Word) : rsvField (packWord opc opnd) = 0 := by
  apply BitVec.eq_of_getLsbD_eq
  intro i hi
  have h : 8 + i < 32 := by omega
  simp [rsvField, packWord, h]

theorem opndField_packWord (opc : Byte) (opnd : Word) : opndField (packWord opc opnd) = opnd := by
  apply BitVec.eq_of_getLsbD_eq
  intro i hi
  have h : 32 + i < 64 := by omega
  have ho : opc.getLsbD (32 + i) = false := BitVec.getLsbD_of_ge _ _ (by omega)
  simp [opndField, packWord, hi, h, ho]

/-- A code with a row is one of 0x01 to 0x09. -/
theorem hostRow_isSome_iff (opc : Byte) : (hostRow opc).isSome = true ↔ 1 ≤ opc.toNat ∧ opc.toNat ≤ 9 := by
  revert opc; decide

end Sys2Proof
end

