-- ==== Sys2Proof/Laws/State.lean ====
section
/-! SUPPORT. One lemma per field per update of the state, so that no proof unfolds a record update. -/

namespace Sys2Proof.Machine

/-! ### Pairs -/

@[simp] theorem Pair.get_tone {α : Type} (p : Pair α) : p.get .tone = p.tone := rfl
@[simp] theorem Pair.get_beep {α : Type} (p : Pair α) : p.get .beep = p.beep := rfl
@[simp] theorem Pair.set_tone {α : Type} (p : Pair α) (v : α) : p.set .tone v = ⟨v, p.beep⟩ := rfl
@[simp] theorem Pair.set_beep {α : Type} (p : Pair α) (v : α) : p.set .beep v = ⟨p.tone, v⟩ := rfl

/-- A write of one channel's field is read back. -/
theorem Pair.get_set_same {α : Type} (p : Pair α) (c : Channel) (v : α) : (p.set c v).get c = v := by
  cases c <;> rfl

/-- A write of one channel's field leaves the other channel's. -/
theorem Pair.get_set_other {α : Type} (p : Pair α) (c d : Channel) (v : α) (h : d ≠ c) :
    (p.set c v).get d = p.get d := by
  cases c <;> cases d <;> first | rfl | exact absurd rfl h

/-- A pair is its two fields. -/
theorem Pair.ext_fields {α : Type} {p q : Pair α} (ht : p.tone = q.tone) (hb : p.beep = q.beep) : p = q := by
  cases p; cases q; cases ht; cases hb; rfl

/-! ### refuse -/

@[simp] theorem State.refuse_active (s : State) (r : RefusalReason) : (s.refuse r).active = s.active := rfl
@[simp] theorem State.refuse_carrier (s : State) (r : RefusalReason) : (s.refuse r).carrier = s.carrier := rfl
@[simp] theorem State.refuse_pin (s : State) (r : RefusalReason) : (s.refuse r).pin = s.pin := rfl
@[simp] theorem State.refuse_en (s : State) (r : RefusalReason) : (s.refuse r).en = s.en := rfl
@[simp] theorem State.refuse_inc (s : State) (r : RefusalReason) : (s.refuse r).inc = s.inc := rfl
@[simp] theorem State.refuse_acc (s : State) (r : RefusalReason) : (s.refuse r).acc = s.acc := rfl
@[simp] theorem State.refuse_duty (s : State) (r : RefusalReason) : (s.refuse r).duty = s.duty := rfl
@[simp] theorem State.refuse_cnt (s : State) (r : RefusalReason) : (s.refuse r).cnt = s.cnt := rfl
@[simp] theorem State.refuse_refused (s : State) (r : RefusalReason) : (s.refuse r).refused = true := rfl
@[simp] theorem State.refuse_lastRefusal (s : State) (r : RefusalReason) : (s.refuse r).lastRefusal = some r := rfl
@[simp] theorem State.refuse_draws (s : State) (r : RefusalReason) : (s.refuse r).draws = s.draws := rfl
@[simp] theorem State.refuse_port (s : State) (r : RefusalReason) : (s.refuse r).port = s.port := rfl

/-! ### setEn -/

@[simp] theorem State.setEn_active (s : State) (c : Channel) (b : Bool) : (s.setEn c b).active = s.active := rfl
@[simp] theorem State.setEn_carrier (s : State) (c : Channel) (b : Bool) : (s.setEn c b).carrier = s.carrier := rfl
@[simp] theorem State.setEn_pin (s : State) (c : Channel) (b : Bool) : (s.setEn c b).pin = s.pin := rfl
@[simp] theorem State.setEn_en (s : State) (c : Channel) (b : Bool) : (s.setEn c b).en = s.en.set c b := rfl
@[simp] theorem State.setEn_inc (s : State) (c : Channel) (b : Bool) : (s.setEn c b).inc = s.inc := rfl
@[simp] theorem State.setEn_acc (s : State) (c : Channel) (b : Bool) : (s.setEn c b).acc = s.acc := rfl
@[simp] theorem State.setEn_duty (s : State) (c : Channel) (b : Bool) : (s.setEn c b).duty = s.duty := rfl
@[simp] theorem State.setEn_cnt (s : State) (c : Channel) (b : Bool) : (s.setEn c b).cnt = s.cnt := rfl
@[simp] theorem State.setEn_refused (s : State) (c : Channel) (b : Bool) : (s.setEn c b).refused = s.refused := rfl
@[simp] theorem State.setEn_lastRefusal (s : State) (c : Channel) (b : Bool) : (s.setEn c b).lastRefusal = s.lastRefusal := rfl
@[simp] theorem State.setEn_draws (s : State) (c : Channel) (b : Bool) : (s.setEn c b).draws = s.draws := rfl
@[simp] theorem State.setEn_port (s : State) (c : Channel) (b : Bool) : (s.setEn c b).port = s.port := rfl

/-! ### setInc -/

@[simp] theorem State.setInc_active (s : State) (c : Channel) (v : Word) : (s.setInc c v).active = s.active := rfl
@[simp] theorem State.setInc_carrier (s : State) (c : Channel) (v : Word) : (s.setInc c v).carrier = s.carrier := rfl
@[simp] theorem State.setInc_pin (s : State) (c : Channel) (v : Word) : (s.setInc c v).pin = s.pin := rfl
@[simp] theorem State.setInc_en (s : State) (c : Channel) (v : Word) : (s.setInc c v).en = s.en := rfl
@[simp] theorem State.setInc_inc (s : State) (c : Channel) (v : Word) : (s.setInc c v).inc = s.inc.set c v := rfl
@[simp] theorem State.setInc_acc (s : State) (c : Channel) (v : Word) : (s.setInc c v).acc = s.acc := rfl
@[simp] theorem State.setInc_duty (s : State) (c : Channel) (v : Word) : (s.setInc c v).duty = s.duty := rfl
@[simp] theorem State.setInc_cnt (s : State) (c : Channel) (v : Word) : (s.setInc c v).cnt = s.cnt := rfl
@[simp] theorem State.setInc_refused (s : State) (c : Channel) (v : Word) : (s.setInc c v).refused = s.refused := rfl
@[simp] theorem State.setInc_lastRefusal (s : State) (c : Channel) (v : Word) : (s.setInc c v).lastRefusal = s.lastRefusal := rfl
@[simp] theorem State.setInc_draws (s : State) (c : Channel) (v : Word) : (s.setInc c v).draws = s.draws := rfl
@[simp] theorem State.setInc_port (s : State) (c : Channel) (v : Word) : (s.setInc c v).port = s.port := rfl

/-! ### setCnt -/

@[simp] theorem State.setCnt_active (s : State) (v : Word) : (s.setCnt v).active = s.active := rfl
@[simp] theorem State.setCnt_carrier (s : State) (v : Word) : (s.setCnt v).carrier = s.carrier := rfl
@[simp] theorem State.setCnt_pin (s : State) (v : Word) : (s.setCnt v).pin = s.pin := rfl
@[simp] theorem State.setCnt_en (s : State) (v : Word) : (s.setCnt v).en = s.en := rfl
@[simp] theorem State.setCnt_inc (s : State) (v : Word) : (s.setCnt v).inc = s.inc := rfl
@[simp] theorem State.setCnt_acc (s : State) (v : Word) : (s.setCnt v).acc = s.acc := rfl
@[simp] theorem State.setCnt_duty (s : State) (v : Word) : (s.setCnt v).duty = s.duty := rfl
@[simp] theorem State.setCnt_cnt (s : State) (v : Word) : (s.setCnt v).cnt = v := rfl
@[simp] theorem State.setCnt_refused (s : State) (v : Word) : (s.setCnt v).refused = s.refused := rfl
@[simp] theorem State.setCnt_lastRefusal (s : State) (v : Word) : (s.setCnt v).lastRefusal = s.lastRefusal := rfl
@[simp] theorem State.setCnt_draws (s : State) (v : Word) : (s.setCnt v).draws = s.draws := rfl
@[simp] theorem State.setCnt_port (s : State) (v : Word) : (s.setCnt v).port = s.port := rfl

/-! ### setCarrier -/

@[simp] theorem State.setCarrier_active (s : State) (v : Carrier) : (s.setCarrier v).active = s.active := rfl
@[simp] theorem State.setCarrier_carrier (s : State) (v : Carrier) : (s.setCarrier v).carrier = v := rfl
@[simp] theorem State.setCarrier_pin (s : State) (v : Carrier) : (s.setCarrier v).pin = s.pin := rfl
@[simp] theorem State.setCarrier_en (s : State) (v : Carrier) : (s.setCarrier v).en = s.en := rfl
@[simp] theorem State.setCarrier_inc (s : State) (v : Carrier) : (s.setCarrier v).inc = s.inc := rfl
@[simp] theorem State.setCarrier_acc (s : State) (v : Carrier) : (s.setCarrier v).acc = s.acc := rfl
@[simp] theorem State.setCarrier_duty (s : State) (v : Carrier) : (s.setCarrier v).duty = s.duty := rfl
@[simp] theorem State.setCarrier_cnt (s : State) (v : Carrier) : (s.setCarrier v).cnt = s.cnt := rfl
@[simp] theorem State.setCarrier_refused (s : State) (v : Carrier) : (s.setCarrier v).refused = s.refused := rfl
@[simp] theorem State.setCarrier_lastRefusal (s : State) (v : Carrier) : (s.setCarrier v).lastRefusal = s.lastRefusal := rfl
@[simp] theorem State.setCarrier_draws (s : State) (v : Carrier) : (s.setCarrier v).draws = s.draws := rfl
@[simp] theorem State.setCarrier_port (s : State) (v : Carrier) : (s.setCarrier v).port = s.port := rfl

/-! ### setPins -/

@[simp] theorem State.setPins_active (s : State) (m : PinMode) : (s.setPins m).active = s.active := rfl
@[simp] theorem State.setPins_carrier (s : State) (m : PinMode) : (s.setPins m).carrier = s.carrier := rfl
@[simp] theorem State.setPins_pin (s : State) (m : PinMode) : (s.setPins m).pin = ⟨m, m⟩ := rfl
@[simp] theorem State.setPins_en (s : State) (m : PinMode) : (s.setPins m).en = s.en := rfl
@[simp] theorem State.setPins_inc (s : State) (m : PinMode) : (s.setPins m).inc = s.inc := rfl
@[simp] theorem State.setPins_acc (s : State) (m : PinMode) : (s.setPins m).acc = s.acc := rfl
@[simp] theorem State.setPins_duty (s : State) (m : PinMode) : (s.setPins m).duty = s.duty := rfl
@[simp] theorem State.setPins_cnt (s : State) (m : PinMode) : (s.setPins m).cnt = s.cnt := rfl
@[simp] theorem State.setPins_refused (s : State) (m : PinMode) : (s.setPins m).refused = s.refused := rfl
@[simp] theorem State.setPins_lastRefusal (s : State) (m : PinMode) : (s.setPins m).lastRefusal = s.lastRefusal := rfl
@[simp] theorem State.setPins_draws (s : State) (m : PinMode) : (s.setPins m).draws = s.draws := rfl
@[simp] theorem State.setPins_port (s : State) (m : PinMode) : (s.setPins m).port = s.port := rfl

/-! ### setActive -/

@[simp] theorem State.setActive_active (s : State) (b : Bool) : (s.setActive b).active = b := rfl
@[simp] theorem State.setActive_carrier (s : State) (b : Bool) : (s.setActive b).carrier = s.carrier := rfl
@[simp] theorem State.setActive_pin (s : State) (b : Bool) : (s.setActive b).pin = s.pin := rfl
@[simp] theorem State.setActive_en (s : State) (b : Bool) : (s.setActive b).en = s.en := rfl
@[simp] theorem State.setActive_inc (s : State) (b : Bool) : (s.setActive b).inc = s.inc := rfl
@[simp] theorem State.setActive_acc (s : State) (b : Bool) : (s.setActive b).acc = s.acc := rfl
@[simp] theorem State.setActive_duty (s : State) (b : Bool) : (s.setActive b).duty = s.duty := rfl
@[simp] theorem State.setActive_cnt (s : State) (b : Bool) : (s.setActive b).cnt = s.cnt := rfl
@[simp] theorem State.setActive_refused (s : State) (b : Bool) : (s.setActive b).refused = s.refused := rfl
@[simp] theorem State.setActive_lastRefusal (s : State) (b : Bool) : (s.setActive b).lastRefusal = s.lastRefusal := rfl
@[simp] theorem State.setActive_draws (s : State) (b : Bool) : (s.setActive b).draws = s.draws := rfl
@[simp] theorem State.setActive_port (s : State) (b : Bool) : (s.setActive b).port = s.port := rfl

/-! ### clearChannels -/

@[simp] theorem State.clearChannels_active (s : State) : s.clearChannels.active = s.active := rfl
@[simp] theorem State.clearChannels_carrier (s : State) : s.clearChannels.carrier = s.carrier := rfl
@[simp] theorem State.clearChannels_pin (s : State) : s.clearChannels.pin = s.pin := rfl
@[simp] theorem State.clearChannels_en (s : State) : s.clearChannels.en = ⟨false, false⟩ := rfl
@[simp] theorem State.clearChannels_inc (s : State) : s.clearChannels.inc = ⟨0, 0⟩ := rfl
@[simp] theorem State.clearChannels_acc (s : State) : s.clearChannels.acc = ⟨0, 0⟩ := rfl
@[simp] theorem State.clearChannels_duty (s : State) : s.clearChannels.duty = s.duty := rfl
@[simp] theorem State.clearChannels_cnt (s : State) : s.clearChannels.cnt = 0 := rfl
@[simp] theorem State.clearChannels_refused (s : State) : s.clearChannels.refused = s.refused := rfl
@[simp] theorem State.clearChannels_lastRefusal (s : State) : s.clearChannels.lastRefusal = s.lastRefusal := rfl
@[simp] theorem State.clearChannels_draws (s : State) : s.clearChannels.draws = s.draws := rfl
@[simp] theorem State.clearChannels_port (s : State) : s.clearChannels.port = s.port := rfl

/-! ### drawDuties -/

@[simp] theorem State.drawDuties_active (s : State) : s.drawDuties.active = s.active := rfl
@[simp] theorem State.drawDuties_carrier (s : State) : s.drawDuties.carrier = s.carrier := rfl
@[simp] theorem State.drawDuties_pin (s : State) : s.drawDuties.pin = s.pin := rfl
@[simp] theorem State.drawDuties_en (s : State) : s.drawDuties.en = s.en := rfl
@[simp] theorem State.drawDuties_inc (s : State) : s.drawDuties.inc = s.inc := rfl
@[simp] theorem State.drawDuties_acc (s : State) : s.drawDuties.acc = s.acc := rfl
@[simp] theorem State.drawDuties_duty (s : State) : s.drawDuties.duty = ⟨Config.freeDuty s.draws, Config.freeDuty (s.draws + 1)⟩ := rfl
@[simp] theorem State.drawDuties_cnt (s : State) : s.drawDuties.cnt = s.cnt := rfl
@[simp] theorem State.drawDuties_refused (s : State) : s.drawDuties.refused = s.refused := rfl
@[simp] theorem State.drawDuties_lastRefusal (s : State) : s.drawDuties.lastRefusal = s.lastRefusal := rfl
@[simp] theorem State.drawDuties_draws (s : State) : s.drawDuties.draws = s.draws + 2 := rfl
@[simp] theorem State.drawDuties_port (s : State) : s.drawDuties.port = s.port := rfl

/-! ### channelOn -/

@[simp] theorem State.channelOn_active (s : State) (c : Channel) : (s.channelOn c).active = s.active := rfl
@[simp] theorem State.channelOn_carrier (s : State) (c : Channel) : (s.channelOn c).carrier = .running := rfl
@[simp] theorem State.channelOn_pin (s : State) (c : Channel) : (s.channelOn c).pin = s.pin := rfl
@[simp] theorem State.channelOn_en (s : State) (c : Channel) : (s.channelOn c).en = s.en.set c true := rfl
@[simp] theorem State.channelOn_inc (s : State) (c : Channel) : (s.channelOn c).inc = s.inc := rfl
@[simp] theorem State.channelOn_acc (s : State) (c : Channel) : (s.channelOn c).acc = s.acc := rfl
@[simp] theorem State.channelOn_duty (s : State) (c : Channel) : (s.channelOn c).duty = s.duty := rfl
@[simp] theorem State.channelOn_cnt (s : State) (c : Channel) : (s.channelOn c).cnt = s.cnt := rfl
@[simp] theorem State.channelOn_refused (s : State) (c : Channel) : (s.channelOn c).refused = s.refused := rfl
@[simp] theorem State.channelOn_lastRefusal (s : State) (c : Channel) : (s.channelOn c).lastRefusal = s.lastRefusal := rfl
@[simp] theorem State.channelOn_draws (s : State) (c : Channel) : (s.channelOn c).draws = s.draws := rfl
@[simp] theorem State.channelOn_port (s : State) (c : Channel) : (s.channelOn c).port = s.port := rfl

/-! ### channelOff -/

@[simp] theorem State.channelOff_active (s : State) (c : Channel) : (s.channelOff c).active = s.active := rfl
@[simp] theorem State.channelOff_carrier (s : State) (c : Channel) : (s.channelOff c).carrier = s.carrier := rfl
@[simp] theorem State.channelOff_pin (s : State) (c : Channel) : (s.channelOff c).pin = s.pin := rfl
@[simp] theorem State.channelOff_en (s : State) (c : Channel) : (s.channelOff c).en = s.en.set c false := rfl
@[simp] theorem State.channelOff_inc (s : State) (c : Channel) : (s.channelOff c).inc = s.inc := rfl
@[simp] theorem State.channelOff_acc (s : State) (c : Channel) : (s.channelOff c).acc = s.acc := rfl
@[simp] theorem State.channelOff_duty (s : State) (c : Channel) : (s.channelOff c).duty = s.duty := rfl
@[simp] theorem State.channelOff_cnt (s : State) (c : Channel) : (s.channelOff c).cnt = s.cnt := rfl
@[simp] theorem State.channelOff_refused (s : State) (c : Channel) : (s.channelOff c).refused = s.refused := rfl
@[simp] theorem State.channelOff_lastRefusal (s : State) (c : Channel) : (s.channelOff c).lastRefusal = s.lastRefusal := rfl
@[simp] theorem State.channelOff_draws (s : State) (c : Channel) : (s.channelOff c).draws = s.draws := rfl
@[simp] theorem State.channelOff_port (s : State) (c : Channel) : (s.channelOff c).port = s.port := rfl

/-! ### advance -/

@[simp] theorem State.advance_active (s : State) : s.advance.active = s.active := rfl
@[simp] theorem State.advance_carrier (s : State) : s.advance.carrier = s.carrier := rfl
@[simp] theorem State.advance_pin (s : State) : s.advance.pin = s.pin := rfl
@[simp] theorem State.advance_en (s : State) : s.advance.en = s.en := rfl
@[simp] theorem State.advance_inc (s : State) : s.advance.inc = s.inc := rfl
@[simp] theorem State.advance_acc (s : State) : s.advance.acc = ⟨s.acc.tone + s.inc.tone, s.acc.beep + s.inc.beep⟩ := rfl
@[simp] theorem State.advance_duty (s : State) : s.advance.duty = ⟨sample (tableIndex (s.acc.tone + s.inc.tone)), sample (tableIndex (s.acc.beep + s.inc.beep))⟩ := rfl
@[simp] theorem State.advance_cnt (s : State) : s.advance.cnt = s.cnt := rfl
@[simp] theorem State.advance_refused (s : State) : s.advance.refused = s.refused := rfl
@[simp] theorem State.advance_lastRefusal (s : State) : s.advance.lastRefusal = s.lastRefusal := rfl
@[simp] theorem State.advance_draws (s : State) : s.advance.draws = s.draws := rfl
@[simp] theorem State.advance_port (s : State) : s.advance.port = s.port := rfl

/-! ### deliver -/

@[simp] theorem State.deliver_active (s : State) (es : List Event) : (s.deliver es).active = s.active := rfl
@[simp] theorem State.deliver_carrier (s : State) (es : List Event) : (s.deliver es).carrier = s.carrier := rfl
@[simp] theorem State.deliver_pin (s : State) (es : List Event) : (s.deliver es).pin = s.pin := rfl
@[simp] theorem State.deliver_en (s : State) (es : List Event) : (s.deliver es).en = s.en := rfl
@[simp] theorem State.deliver_inc (s : State) (es : List Event) : (s.deliver es).inc = s.inc := rfl
@[simp] theorem State.deliver_acc (s : State) (es : List Event) : (s.deliver es).acc = s.acc := rfl
@[simp] theorem State.deliver_duty (s : State) (es : List Event) : (s.deliver es).duty = s.duty := rfl
@[simp] theorem State.deliver_cnt (s : State) (es : List Event) : (s.deliver es).cnt = s.cnt := rfl
@[simp] theorem State.deliver_refused (s : State) (es : List Event) : (s.deliver es).refused = s.refused := rfl
@[simp] theorem State.deliver_lastRefusal (s : State) (es : List Event) : (s.deliver es).lastRefusal = s.lastRefusal := rfl
@[simp] theorem State.deliver_draws (s : State) (es : List Event) : (s.deliver es).draws = s.draws := rfl
@[simp] theorem State.deliver_port (s : State) (es : List Event) : (s.deliver es).port = s.port ++ es := rfl

/-! ### deliverFirst -/

@[simp] theorem State.deliverFirst_active (s : State) (e : Event) : (s.deliverFirst e).active = s.active := rfl
@[simp] theorem State.deliverFirst_carrier (s : State) (e : Event) : (s.deliverFirst e).carrier = s.carrier := rfl
@[simp] theorem State.deliverFirst_pin (s : State) (e : Event) : (s.deliverFirst e).pin = s.pin := rfl
@[simp] theorem State.deliverFirst_en (s : State) (e : Event) : (s.deliverFirst e).en = s.en := rfl
@[simp] theorem State.deliverFirst_inc (s : State) (e : Event) : (s.deliverFirst e).inc = s.inc := rfl
@[simp] theorem State.deliverFirst_acc (s : State) (e : Event) : (s.deliverFirst e).acc = s.acc := rfl
@[simp] theorem State.deliverFirst_duty (s : State) (e : Event) : (s.deliverFirst e).duty = s.duty := rfl
@[simp] theorem State.deliverFirst_cnt (s : State) (e : Event) : (s.deliverFirst e).cnt = s.cnt := rfl
@[simp] theorem State.deliverFirst_refused (s : State) (e : Event) : (s.deliverFirst e).refused = s.refused := rfl
@[simp] theorem State.deliverFirst_lastRefusal (s : State) (e : Event) : (s.deliverFirst e).lastRefusal = s.lastRefusal := rfl
@[simp] theorem State.deliverFirst_draws (s : State) (e : Event) : (s.deliverFirst e).draws = s.draws := rfl
@[simp] theorem State.deliverFirst_port (s : State) (e : Event) : (s.deliverFirst e).port = e :: s.port := rfl

end Sys2Proof.Machine
end

