-- ==== Sys2Proof/Laws/Ops.lean ====
section
/-! SUPPORT. For each shared operation, once, everything it can do. -/

namespace Sys2Proof

/-- The index notation of the source (R7): `(accumulator >> 16) & 0xFF` equals `accumulator[23:16]`. -/
theorem tableIndex_eq_shift_mask (a : Word) : (tableIndex a).setWidth 32 = (a >>> 16) &&& 0xFF#32 := by
  apply BitVec.eq_of_toNat_eq
  rw [BitVec.toNat_and, show (0xFF#32).toNat = 2 ^ 8 - 1 from rfl, Nat.and_two_pow_sub_one_eq_mod]
  simp only [tableIndex, BitVec.toNat_setWidth, BitVec.extractLsb'_toNat, BitVec.toNat_ushiftRight]
  omega

/-- The table index as an unsigned number (R7). -/
theorem tableIndex_toNat (a : Word) : (tableIndex a).toNat = a.toNat / 2 ^ 16 % 2 ^ 8 := by
  simp [tableIndex, Nat.shiftRight_eq_div_pow]

end Sys2Proof

namespace Sys2Proof.Machine

/-! ### Attempts and admission -/

@[simp] theorem attempt_ok (s t : State) : attempt s (.ok t) = .next t := rfl

@[simp] theorem attempt_error (s : State) (r : RefusalReason) : attempt s (.error r) = .next (s.refuse r) := rfl

/-- An attempt answers the state it gives, or the refusal of the state it began in; nothing else. -/
theorem attempt_next_iff {s t : State} {k : Except RefusalReason State} :
    attempt s k = .next t ↔ k = .ok t ∨ ∃ r, k = .error r ∧ t = s.refuse r := by
  cases k with
  | ok u => simp
  | error r => simp [eq_comm]

/-- An attempt always answers a next state. -/
theorem attempt_answers (s : State) (k : Except RefusalReason State) : ∃ t, attempt s k = .next t := by
  cases k with
  | ok u => exact ⟨u, rfl⟩
  | error r => exact ⟨s.refuse r, rfl⟩

theorem whenActive_of_active {s : State} {k : Except RefusalReason State} (h : s.active = true) :
    s.whenActive k = k := by simp [State.whenActive, h]

theorem whenActive_of_inactive {s : State} {k : Except RefusalReason State} (h : s.active = false) :
    s.whenActive k = .error .notActive := by simp [State.whenActive, h]

theorem whenInactive_of_inactive {s : State} {k : Except RefusalReason State} (h : s.active = false) :
    s.whenInactive k = k := by simp [State.whenInactive, h]

theorem whenInactive_of_active {s : State} {k : Except RefusalReason State} (h : s.active = true) :
    s.whenInactive k = .error .alreadyActive := by simp [State.whenInactive, h]

theorem whenTicking_of_enabled {s : State} {k : Except RefusalReason State} (h : s.tickEnabled = true) :
    s.whenTicking k = k := by simp [State.whenTicking, h]

theorem whenTicking_of_disabled {s : State} {k : Except RefusalReason State} (h : s.tickEnabled = false) :
    s.whenTicking k = .error .tickWhileIdle := by simp [State.whenTicking, h]

/-- When a command that needs an active module succeeds, it was admitted and gave what it gives. -/
theorem whenActive_ok_iff {s t : State} {k : Except RefusalReason State} :
    s.whenActive k = .ok t ↔ s.active = true ∧ k = .ok t := by
  cases h : s.active <;> simp [State.whenActive, h]

theorem whenInactive_ok_iff {s t : State} {k : Except RefusalReason State} :
    s.whenInactive k = .ok t ↔ s.active = false ∧ k = .ok t := by
  cases h : s.active <;> simp [State.whenInactive, h]

theorem whenTicking_ok_iff {s t : State} {k : Except RefusalReason State} :
    s.whenTicking k = .ok t ↔ s.tickEnabled = true ∧ k = .ok t := by
  cases h : s.tickEnabled <;> simp [State.whenTicking, h]

/-- The TIMER has a step exactly in an active module whose carrier runs. -/
theorem tickEnabled_iff (s : State) : s.tickEnabled = true ↔ s.active = true ∧ s.carrier = .running := by
  simp [State.tickEnabled]

/-! ### The phases of a tick -/

/-- What the countdown of a tick does: nothing, the expiry, or one decrement. -/
theorem countDown_cases (s : State) :
    (s.cnt = 0 ∧ s.countDown = s) ∨
    (s.cnt = 1 ∧ s.countDown = (s.setCnt 0).setEn .beep false) ∨
    (s.cnt ≠ 0 ∧ s.cnt ≠ 1 ∧ s.countDown = s.setCnt (s.cnt - 1)) := by
  unfold State.countDown
  by_cases h0 : s.cnt = 0
  · simp [h0]
  · by_cases h1 : s.cnt - 1 = 0
    · have h : s.cnt = 1 := by bv_omega
      simp [h]
    · have h : s.cnt ≠ 1 := fun h => h1 (by simp [h])
      exact .inr (.inr ⟨h0, h, by rw [if_neg h0, if_neg h1]⟩)

/-- What auto-shutdown does: nothing while a channel is on, else the carrier stops. -/
theorem autoShutdown_cases (s : State) :
    ((s.en.tone = true ∨ s.en.beep = true) ∧ s.autoShutdown = s) ∨
    (s.en.tone = false ∧ s.en.beep = false ∧ s.autoShutdown = s.setCarrier .idle) := by
  unfold State.autoShutdown
  cases ht : s.en.tone <;> cases hb : s.en.beep <;> simp

@[simp] theorem State.countDown_active (s : State) : s.countDown.active = s.active := by
  unfold State.countDown; split <;> [rfl; (split <;> rfl)]
@[simp] theorem State.countDown_carrier (s : State) : s.countDown.carrier = s.carrier := by
  unfold State.countDown; split <;> [rfl; (split <;> rfl)]
@[simp] theorem State.countDown_pin (s : State) : s.countDown.pin = s.pin := by
  unfold State.countDown; split <;> [rfl; (split <;> rfl)]
@[simp] theorem State.countDown_en_tone (s : State) : s.countDown.en.tone = s.en.tone := by
  unfold State.countDown; split <;> [rfl; (split <;> rfl)]
@[simp] theorem State.countDown_inc (s : State) : s.countDown.inc = s.inc := by
  unfold State.countDown; split <;> [rfl; (split <;> rfl)]
@[simp] theorem State.countDown_acc (s : State) : s.countDown.acc = s.acc := by
  unfold State.countDown; split <;> [rfl; (split <;> rfl)]
@[simp] theorem State.countDown_duty (s : State) : s.countDown.duty = s.duty := by
  unfold State.countDown; split <;> [rfl; (split <;> rfl)]
@[simp] theorem State.countDown_refused (s : State) : s.countDown.refused = s.refused := by
  unfold State.countDown; split <;> [rfl; (split <;> rfl)]
@[simp] theorem State.countDown_lastRefusal (s : State) : s.countDown.lastRefusal = s.lastRefusal := by
  unfold State.countDown; split <;> [rfl; (split <;> rfl)]
@[simp] theorem State.countDown_draws (s : State) : s.countDown.draws = s.draws := by
  unfold State.countDown; split <;> [rfl; (split <;> rfl)]
@[simp] theorem State.countDown_port (s : State) : s.countDown.port = s.port := by
  unfold State.countDown; split <;> [rfl; (split <;> rfl)]

/-- The countdown after a tick. -/
theorem State.countDown_cnt (s : State) : s.countDown.cnt = if s.cnt = 0 then 0 else s.cnt - 1 := by
  rcases countDown_cases s with ⟨h, e⟩ | ⟨h, e⟩ | ⟨h0, _, e⟩
  · simp [e, h]
  · simp [e, h]
  · rw [e, if_neg h0]; rfl

/-- BEEP's enable after the countdown of a tick: cleared exactly when the countdown goes from 1 to 0. -/
theorem State.countDown_en_beep (s : State) : s.countDown.en.beep = (s.en.beep && s.cnt != 1) := by
  rcases countDown_cases s with ⟨h, e⟩ | ⟨h, e⟩ | ⟨_, h1, e⟩
  · simp [e, h]
  · simp [e, h]
  · have h : (s.cnt != 1) = true := by simpa using h1
    rw [e, h, Bool.and_true]; rfl

@[simp] theorem State.autoShutdown_active (s : State) : s.autoShutdown.active = s.active := by
  unfold State.autoShutdown; split <;> rfl
@[simp] theorem State.autoShutdown_pin (s : State) : s.autoShutdown.pin = s.pin := by
  unfold State.autoShutdown; split <;> rfl
@[simp] theorem State.autoShutdown_en (s : State) : s.autoShutdown.en = s.en := by
  unfold State.autoShutdown; split <;> rfl
@[simp] theorem State.autoShutdown_inc (s : State) : s.autoShutdown.inc = s.inc := by
  unfold State.autoShutdown; split <;> rfl
@[simp] theorem State.autoShutdown_acc (s : State) : s.autoShutdown.acc = s.acc := by
  unfold State.autoShutdown; split <;> rfl
@[simp] theorem State.autoShutdown_duty (s : State) : s.autoShutdown.duty = s.duty := by
  unfold State.autoShutdown; split <;> rfl
@[simp] theorem State.autoShutdown_cnt (s : State) : s.autoShutdown.cnt = s.cnt := by
  unfold State.autoShutdown; split <;> rfl
@[simp] theorem State.autoShutdown_refused (s : State) : s.autoShutdown.refused = s.refused := by
  unfold State.autoShutdown; split <;> rfl
@[simp] theorem State.autoShutdown_lastRefusal (s : State) : s.autoShutdown.lastRefusal = s.lastRefusal := by
  unfold State.autoShutdown; split <;> rfl
@[simp] theorem State.autoShutdown_draws (s : State) : s.autoShutdown.draws = s.draws := by
  unfold State.autoShutdown; split <;> rfl
@[simp] theorem State.autoShutdown_port (s : State) : s.autoShutdown.port = s.port := by
  unfold State.autoShutdown; split <;> rfl

/-- The carrier after auto-shutdown. -/
theorem State.autoShutdown_carrier (s : State) :
    s.autoShutdown.carrier = if s.en.tone || s.en.beep then s.carrier else .idle := by
  unfold State.autoShutdown; split <;> rfl

/-! ### Deliveries -/

/-- What is pending: the instruction or the refused word of the first delivery; with none, the TIMER's tick if it has
one, else nothing. -/
theorem pending_cases (s : State) :
    (∃ e rest i, s.port = e :: rest ∧ decode e.src e.word = .ok i ∧ s.pending = .run i { s with port := rest }) ∨
    (∃ e rest r, s.port = e :: rest ∧ decode e.src e.word = .error r ∧
      s.pending = .reject r { s with port := rest }) ∨
    (s.port = [] ∧ s.tickEnabled = true ∧ s.pending = .run .tick s) ∨
    (s.port = [] ∧ s.tickEnabled = false ∧ s.pending = .quiet) := by
  unfold State.pending
  cases hp : s.port with
  | nil => cases ht : s.tickEnabled <;> simp
  | cons e rest =>
    cases hd : decode e.src e.word with
    | ok i => exact .inl ⟨e, rest, i, rfl, hd, by simp only [hd]⟩
    | error r => exact .inr (.inl ⟨e, rest, r, rfl, hd, by simp only [hd]⟩)

end Sys2Proof.Machine
end

