-- ==== Sys2Proof/Laws/Exec.lean ====
section
/-! SUPPORT. What performing an instruction can do, said once: it is refused, or it has its effect under its admission;
and from it what a step can do. -/

namespace Sys2Proof.Machine

/-- The effect of each instruction, admitted: `Performed s i t` takes `s` to `t` by `i`. -/
inductive Performed (s : State) : Instr → State → Prop where
  | init (h : s.active = false) :
    Performed s .init (((((s.setPins .driving).setCarrier .idle).clearChannels).drawDuties).setActive true)
  | shutdown : Performed s .shutdown (((s.setCarrier .idle).setPins .quiescent).setActive false)
  | settone (bits v : Word) (h : s.active = true) (hv : incrementOperand Config.params bits = .ok v) :
    Performed s (.settone bits) (s.setInc .tone v)
  | toneon (h : s.active = true) : Performed s .toneon (s.channelOn .tone)
  | toneoff (h : s.active = true) : Performed s .toneoff (s.channelOff .tone)
  | setbeep (bits v : Word) (h : s.active = true) (hv : incrementOperand Config.params bits = .ok v) :
    Performed s (.setbeep bits) (s.setInc .beep v)
  | beepon (h : s.active = true) : Performed s .beepon ((s.channelOn .beep).setCnt 0)
  | beepoff (h : s.active = true) : Performed s .beepoff ((s.channelOff .beep).setCnt 0)
  | timedbeep (d n : Word) (h : s.active = true) (hn : countdownOperand Config.params d = .ok n) :
    Performed s (.timedbeep d) ((s.channelOn .beep).setCnt n)
  | tick (h : s.tickEnabled = true) : Performed s .tick s.advance.countDown.autoShutdown

/-- A result mapped to a state is a state exactly when the result is there. -/
theorem except_map_ok_iff {α β ε : Type} {f : α → β} {k : Except ε α} {b : β} :
    k.map f = .ok b ↔ ∃ a, k = .ok a ∧ f a = b := by
  cases k <;> simp [Except.map]

/-- An instruction that answers was refused, or had its effect. -/
theorem exec_cases {i : Instr} {s t : State} (h : exec i s = .next t) :
    (∃ r, t = s.refuse r) ∨ Performed s i t := by
  cases i with
  | init =>
    rcases attempt_next_iff.1 h with h | ⟨r, _, e⟩
    · obtain ⟨ha, he⟩ := whenInactive_ok_iff.1 h
      cases he; exact .inr (.init ha)
    · exact .inl ⟨r, e⟩
  | shutdown => cases h; exact .inr .shutdown
  | settone bits =>
    rcases attempt_next_iff.1 h with h | ⟨r, _, e⟩
    · obtain ⟨ha, he⟩ := whenActive_ok_iff.1 h
      obtain ⟨v, hv, rfl⟩ := except_map_ok_iff.1 he
      exact .inr (.settone bits v ha hv)
    · exact .inl ⟨r, e⟩
  | toneon =>
    rcases attempt_next_iff.1 h with h | ⟨r, _, e⟩
    · obtain ⟨ha, he⟩ := whenActive_ok_iff.1 h
      cases he; exact .inr (.toneon ha)
    · exact .inl ⟨r, e⟩
  | toneoff =>
    rcases attempt_next_iff.1 h with h | ⟨r, _, e⟩
    · obtain ⟨ha, he⟩ := whenActive_ok_iff.1 h
      cases he; exact .inr (.toneoff ha)
    · exact .inl ⟨r, e⟩
  | setbeep bits =>
    rcases attempt_next_iff.1 h with h | ⟨r, _, e⟩
    · obtain ⟨ha, he⟩ := whenActive_ok_iff.1 h
      obtain ⟨v, hv, rfl⟩ := except_map_ok_iff.1 he
      exact .inr (.setbeep bits v ha hv)
    · exact .inl ⟨r, e⟩
  | beepon =>
    rcases attempt_next_iff.1 h with h | ⟨r, _, e⟩
    · obtain ⟨ha, he⟩ := whenActive_ok_iff.1 h
      cases he; exact .inr (.beepon ha)
    · exact .inl ⟨r, e⟩
  | beepoff =>
    rcases attempt_next_iff.1 h with h | ⟨r, _, e⟩
    · obtain ⟨ha, he⟩ := whenActive_ok_iff.1 h
      cases he; exact .inr (.beepoff ha)
    · exact .inl ⟨r, e⟩
  | timedbeep d =>
    rcases attempt_next_iff.1 h with h | ⟨r, _, e⟩
    · obtain ⟨ha, he⟩ := whenActive_ok_iff.1 h
      obtain ⟨n, hn, rfl⟩ := except_map_ok_iff.1 he
      exact .inr (.timedbeep d n ha hn)
    · exact .inl ⟨r, e⟩
  | tick =>
    rcases attempt_next_iff.1 h with h | ⟨r, _, e⟩
    · obtain ⟨ha, he⟩ := whenTicking_ok_iff.1 h
      cases he; exact .inr (.tick ha)
    · exact .inl ⟨r, e⟩

/-- An instruction that has its effect answers with it. -/
theorem exec_of_performed {i : Instr} {s t : State} (h : Performed s i t) : exec i s = .next t := by
  cases h with
  | init h => simp only [exec, execInit, whenInactive_of_inactive h, attempt_ok]
  | shutdown => rfl
  | settone bits v h hv =>
    simp only [exec, execSettone, State.setFrequency, whenActive_of_active h, hv, Except.map, attempt_ok]
  | toneon h => simp only [exec, execToneon, whenActive_of_active h, attempt_ok]
  | toneoff h => simp only [exec, execToneoff, whenActive_of_active h, attempt_ok]
  | setbeep bits v h hv =>
    simp only [exec, execSetbeep, State.setFrequency, whenActive_of_active h, hv, Except.map, attempt_ok]
  | beepon h => simp only [exec, execBeepon, whenActive_of_active h, attempt_ok]
  | beepoff h => simp only [exec, execBeepoff, whenActive_of_active h, attempt_ok]
  | timedbeep d n h hn =>
    simp only [exec, execTimedbeep, State.timedBeep, whenActive_of_active h, hn, Except.map, attempt_ok]
  | tick h => simp only [exec, execTick, whenTicking_of_enabled h, attempt_ok]

/-- An instruction always answers a next state. -/
theorem exec_answers (i : Instr) (s : State) : ∃ t, exec i s = .next t := by
  cases i with
  | shutdown => exact ⟨_, rfl⟩
  | _ => exact attempt_answers s _

end Sys2Proof.Machine
end

