-- ==== Sys2Proof/Laws/PerInstr.lean ====
section
/-! SUPPORT. Per instruction: its encoding is a word its agent may deliver (spec 30_encoding.md R71 to R77). -/

namespace Sys2Proof

theorem rsvClear_packWord (opc : Byte) (opnd : Word) : rsvClear (packWord opc opnd) = true := by
  simpa [rsvClear, rsvField] using rsvField_packWord opc opnd

theorem opcAllowed_packWord (src : Agent) (opc : Byte) (opnd : Word) :
    opcAllowed src (packWord opc opnd) = codeAllowed src opc.toNat := by
  have h : (packWord opc opnd).extractLsb' 0 8 = opc := opcField_packWord opc opnd
  simp only [opcAllowed, h]

theorem operandAllowed_packWord (opc : Byte) (opnd : Word) :
    operandAllowed (packWord opc opnd) = ([0x03, 0x06, 0x09].contains opc.toNat || opnd == 0) := by
  have h : (packWord opc opnd).extractLsb' 0 8 = opc := opcField_packWord opc opnd
  have h' : (packWord opc opnd).extractLsb' 32 32 = opnd := opndField_packWord opc opnd
  simp only [operandAllowed, takesOperand, h, h']

/-- A packed word is well-formed when its code is allowed to the agent and its operand to the code. -/
theorem wellFormed_packWord (src : Agent) (opc : Byte) (opnd : Word)
    (hc : codeAllowed src opc.toNat = true)
    (ho : ([0x03, 0x06, 0x09].contains opc.toNat || opnd == 0) = true) :
    wellFormed src (packWord opc opnd) = true := by
  simp only [wellFormed, rsvClear_packWord, opcAllowed_packWord, operandAllowed_packWord, hc, ho, Bool.and_self]

namespace Laws.EncodeWellFormed

/-- The encoding of an instruction is a well-formed word of its agent. -/
def Statement (i : Instr) : Prop := wellFormed (agentOf i) (encode i) = true

theorem init : Statement .init := wellFormed_packWord _ _ _ (by decide) (by decide)
theorem shutdown : Statement .shutdown := wellFormed_packWord _ _ _ (by decide) (by decide)
theorem settone (bits : Word) : Statement (.settone bits) := wellFormed_packWord _ _ _ rfl (by simp)
theorem toneon : Statement .toneon := wellFormed_packWord _ _ _ (by decide) (by decide)
theorem toneoff : Statement .toneoff := wellFormed_packWord _ _ _ (by decide) (by decide)
theorem setbeep (bits : Word) : Statement (.setbeep bits) := wellFormed_packWord _ _ _ rfl (by simp)
theorem beepon : Statement .beepon := wellFormed_packWord _ _ _ (by decide) (by decide)
theorem beepoff : Statement .beepoff := wellFormed_packWord _ _ _ (by decide) (by decide)
theorem timedbeep (d : Word) : Statement (.timedbeep d) := wellFormed_packWord _ _ _ rfl (by simp)
theorem tick : Statement .tick := wellFormed_packWord _ _ _ (by decide) (by decide)

end Laws.EncodeWellFormed

end Sys2Proof
end

