-- ==== Sys2Proof/Laws/Run.lean ====
section
/-! SUPPORT. What one step does, and how runs compose. -/

namespace Sys2Proof.Machine

/-- What a step does: it performs the pending instruction, refuses the pending word, or, with nothing pending, leaves
the state. -/
theorem step_cases (s : State) :
    (∃ i u, s.pending = .run i u ∧ step s = exec i u) ∨
    (∃ r u, s.pending = .reject r u ∧ step s = .next (u.refuse r)) ∨
    (s.pending = .quiet ∧ step s = .next s) := by
  unfold step
  cases h : s.pending with
  | run i u => exact .inl ⟨i, u, rfl, rfl⟩
  | reject r u => exact .inr (.inl ⟨r, u, rfl, rfl⟩)
  | quiet => exact .inr (.inr ⟨rfl, rfl⟩)

/-- Everything a step can do, from the state with its delivery taken: nothing, a refusal, or the effect of the pending
instruction. -/
theorem step_next_cases {s t : State} (h : step s = .next t) :
    (s.pending = .quiet ∧ t = s) ∨
    (∃ e rest r, s.port = e :: rest ∧ t = ({ s with port := rest } : State).refuse r) ∨
    (∃ i u, s.pending = .run i u ∧ (u = s ∨ ∃ e rest, s.port = e :: rest ∧ u = { s with port := rest }) ∧
      Performed u i t) := by
  rcases pending_cases s with ⟨e, rest, i, hp, _, hq⟩ | ⟨e, rest, r, hp, _, hq⟩ | ⟨_, ht, hq⟩ | ⟨_, _, hq⟩
  · have h' : exec i { s with port := rest } = .next t := by simpa only [step, hq] using h
    rcases exec_cases h' with ⟨r, e'⟩ | hperf
    · exact .inr (.inl ⟨e, rest, r, hp, e'⟩)
    · exact .inr (.inr ⟨i, _, hq, .inr ⟨e, rest, hp, rfl⟩, hperf⟩)
  · have h' : (Host.Outcome.next (({ s with port := rest } : State).refuse r) : Result) = .next t := by
      simpa only [step, hq] using h
    cases h'
    exact .inr (.inl ⟨e, rest, r, hp, rfl⟩)
  · have h' : exec .tick s = .next t := by simpa only [step, hq] using h
    have hperf : Performed s .tick s.advance.countDown.autoShutdown := .tick ht
    have h'' := exec_of_performed hperf
    rw [h''] at h'
    cases h'
    exact .inr (.inr ⟨.tick, s, hq, .inl rfl, hperf⟩)
  · have h' : (Host.Outcome.next s : Result) = .next t := by simpa only [step, hq] using h
    cases h'
    exact .inl ⟨hq, rfl⟩

@[simp] theorem run_zero (s : State) : run 0 s = .next s := rfl

/-- A run of one step more begins with that step. -/
theorem run_succ_eq (n : Nat) (s : State) :
    run (n + 1) s = match step s with
      | .next t => run n t
      | .fault r => .fault r
      | .refused r => .refused r := rfl

/-- A run of one step more, from a state whose step answers. -/
theorem run_succ {s t : State} (n : Nat) (h : step s = .next t) : run (n + 1) s = run n t := by
  rw [run_succ_eq, h]

/-- When a run of one step more answers, its first step did. -/
theorem run_succ_next {s t : State} {n : Nat} (h : run (n + 1) s = .next t) :
    ∃ u, step s = .next u ∧ run n u = .next t := by
  rw [run_succ_eq] at h
  cases hs : step s with
  | next u => rw [hs] at h; exact ⟨u, rfl, h⟩
  | fault r => rw [hs] at h; cases h
  | refused r => rw [hs] at h; cases h

/-- A run of `m` steps and then `n` is a run of `m + n`. -/
theorem run_add {s t : State} (m n : Nat) (h : run m s = .next t) : run (m + n) s = run n t := by
  induction m generalizing s with
  | zero => cases h; simp
  | succ m ih =>
    obtain ⟨u, hu, h⟩ := run_succ_next h
    rw [Nat.succ_add, run_succ _ hu, ih h]

/-- The host's run of one step more from a state whose step answers. -/
theorem core_run_succ_next (M : Host.Core) {n : Nat} {s u : M.State} (h : M.step s = .next u) :
    M.run (n + 1) s = M.run n u := by
  simp only [Host.Core.run, h]

/-- The host's run of one step more from a state whose step is refused. -/
theorem core_run_succ_refused (M : Host.Core) {n : Nat} {s : M.State} {r : M.Refusal} (h : M.step s = .refused r) :
    M.run (n + 1) s = .refused r := by
  simp only [Host.Core.run, h]

/-- Runs are the host's runs of `Sys2Proof.core`. -/
theorem run_eq_core (n : Nat) (s : State) : run n s = Host.Core.run Sys2Proof.core n s := by
  induction n generalizing s with
  | zero => rfl
  | succ n ih =>
    cases hs : step s with
    | next u =>
      rw [run_succ _ hs, ih]
      exact (core_run_succ_next Sys2Proof.core hs).symm
    | fault r => cases r
    | refused r =>
      rw [run_succ_eq, hs]
      exact (core_run_succ_refused Sys2Proof.core hs).symm

end Sys2Proof.Machine
end

