-- ==== Sys2Proof/Tests/Slice0.lean ====
section
/-! SUPPORT. Tests of single operations and steps, with results taken from spec/95_test_vectors.md (its vector is named
in each comment) or worked by hand from the rules, and for every statement with hypotheses a witness that meets them. -/

namespace Sys2Proof.Tests

open Sys2Proof Sys2Proof.Machine

/-- The state of a result that is one. -/
def nextOf : Result → Option State
  | .next s => some s
  | _ => none

/-- An active module with an Idle carrier: `S_init` of the vectors, its duty registers 0. -/
def ready : State := { State.reset with active := true, pin := ⟨.driving, .driving⟩ }

/-- An active module with a running carrier and TONE on. -/
def live : State := { ready with carrier := .running, en := ⟨true, false⟩ }

/-- `s` with these deliveries. -/
def withPort (s : State) (es : List Event) : State := { s with port := es }

/-! ### Words: decoding against words written out from R71 to R74, and the refused words -/

-- TV-E1 to TV-E10, TV-E13: one word of every row.
theorem test_decode_init : decode .host 0x0000000000000001#64 = .ok .init := by decide
theorem test_decode_shutdown : decode .host 0x0000000000000002#64 = .ok .shutdown := by decide
theorem test_decode_settone : decode .host 0x4286000000000003#64 = .ok (.settone 0x42860000#32) := by decide
theorem test_decode_toneon : decode .host 0x0000000000000004#64 = .ok .toneon := by decide
theorem test_decode_toneoff : decode .host 0x0000000000000005#64 = .ok .toneoff := by decide
theorem test_decode_setbeep : decode .host 0x42C8000000000006#64 = .ok (.setbeep 0x42C80000#32) := by decide
theorem test_decode_beepon : decode .host 0x0000000000000007#64 = .ok .beepon := by decide
theorem test_decode_beepoff : decode .host 0x0000000000000008#64 = .ok .beepoff := by decide
theorem test_decode_timedbeep : decode .host 0x0000000A00000009#64 = .ok (.timedbeep 10#32) := by decide
theorem test_decode_tick : decode .timer 0x0000000000000080#64 = .ok .tick := by decide

-- TV-E14 to TV-E24.
theorem test_decode_refused :
    decode .host 0x0000000000000000#64 = .error .reservedOpcode ∧
    decode .host 0x000000000000000A#64 = .error .reservedOpcode ∧
    decode .host 0x00000000000000FF#64 = .error .reservedOpcode ∧
    decode .host 0x0000000000000081#64 = .error .reservedOpcode ∧
    decode .host 0x0000000000000101#64 = .error .reservedBits ∧
    decode .host 0x0000000000000100#64 = .error .reservedBits ∧
    decode .host 0x0000000100000001#64 = .error .reservedBits ∧
    decode .host 0x0000000000000080#64 = .error .tickFromHost ∧
    decode .timer 0x0000000100000080#64 = .error .reservedBits ∧
    decode .timer 0x0000000000000001#64 = .error .reservedOpcode ∧
    decode .host 0xFFFFFFFF00000004#64 = .error .reservedBits := by decide

-- TV-E3, TV-E9: words as bytes, least significant first; an incomplete group.
theorem test_bytes :
    wordsOfBytes [0x03, 0x00, 0x00, 0x00, 0x00, 0x00, 0x86, 0x42,
                  0x09, 0x00, 0x00, 0x00, 0x0A, 0x00, 0x00, 0x00, 0x04]
      = [0x4286000000000003#64, 0x0000000A00000009#64] ∧
    decodeBytes .host [0x01, 0x00, 0x00] = .error .incompleteWord ∧
    decodeTableWord 64 0x80 = some .tick ∧ decodeTableWord 64 0x4286000000000003 = some (.settone 0x42860000#32) := by
  decide +kernel

-- The smoke test of WellFormed: an ill-formed word for each check.
theorem test_wellFormed_refuses_rsv : rsvClear 0x80000001#64 = false ∧ wellFormed .host 0x80000001#64 = false := by decide
theorem test_wellFormed_refuses_opc :
    opcAllowed .host 0x80#64 = false ∧ opcAllowed .timer 0x01#64 = false ∧ wellFormed .host 0x0A#64 = false := by decide
theorem test_wellFormed_refuses_operand :
    operandAllowed 0x100000001#64 = false ∧ wellFormed .host 0x100000001#64 = false := by decide
theorem test_wellFormed_accepts : wellFormed .host 0x4286000000000003#64 = true ∧ wellFormed .timer 0x80#64 = true := by
  decide

-- The host's two questions, on one word: the first step after reset delivers and performs it.
theorem test_withFetchWord_init : (nextOf (step (State.reset.withFetchWord 64 0x01))).map (·.active) = some true := rfl
theorem test_withFetchWord_tick :
    (nextOf (step (State.reset.withFetchWord 64 0x80))).map (·.lastRefusal) = some (some .tickWhileIdle) := rfl

/-! ### Datapath -/

/-- The converter's answer as a number. -/
def hzOf (fmt : FpFormat) (bits : Word) : Option Nat :=
  match toIncrement (.ex1 fmt) bits with
  | .ok v => some v.toNat
  | .error _ => none

-- TV-D1 to TV-D15 under EX1: both formats agree.
theorem test_toIncrement_values (fmt : FpFormat) :
    [0x00000000, 0x80000000, 0x00000001, 0x3A83126F, 0x3F800000, 0x42480000, 0x42860000, 0x42B10000, 0x42C80000,
     0x43480000, 0x437E199A, 0x447A0000, 0x46480000, 0x46C80000, 0x4AC7FF38].map (hzOf fmt) =
    [0, 0, 0, 0, 655, 32768, 43909, 57999, 65536, 131072, 166526, 655360, 8388608, 16777216, 4294901760].map some := by
  cases fmt <;> decide +kernel

-- TV-D16: the formats differ.
theorem test_toIncrement_formats :
    hzOf .binary32 0x4AC7FFFE = some 4294966528 ∧ hzOf .binary64 0x4AC7FFFE = some 4294966640 := by decide +kernel

-- TV-D17 to TV-D23: the refusals.
theorem test_toIncrement_refused (fmt : FpFormat) :
    toIncrement (.ex1 fmt) 0x4AC80000 = .error .incrementRange ∧
    toIncrement (.ex1 fmt) 0x7F7FFFFF = .error .incrementRange ∧
    toIncrement (.ex1 fmt) 0x7F800000 = .error .badFrequency ∧
    toIncrement (.ex1 fmt) 0xFF800000 = .error .badFrequency ∧
    toIncrement (.ex1 fmt) 0x7FC00000 = .error .badFrequency ∧
    toIncrement (.ex1 fmt) 0xBF800000 = .error .badFrequency ∧
    toIncrement (.ex1 fmt) 0x80000001 = .error .badFrequency := by
  cases fmt <;> decide +kernel

-- TV-A3, TV-A4, TV-A5, TV-A8, TV-A9, TV-S9.
theorem test_ddsStep :
    ddsStep 0x0000FFFF 1 = (0x00010000, Config.sineTable 1) ∧ ddsStep 0xFFFFFFFF 1 = (0, Config.sineTable 0) ∧
    ddsStep 0x00FF0000 0x00010000 = (0x01000000, Config.sineTable 0) ∧
    ddsStep 0 0x01010000 = (0x01010000, Config.sineTable 1) ∧
    ddsStep 0x00030000 0xFFFF0000 = (0x00020000, Config.sineTable 2) ∧
    ddsStep 0xFFFF0000 0x00020000 = (0x00010000, Config.sineTable 1) :=
  ⟨rfl, rfl, rfl, rfl, rfl, rfl⟩

-- TV-C23 to TV-C29 under EX1, and TV-C31 under a rate of 500.
theorem test_countdownValue :
    countdownValue (.ex1 .binary32) 1 = .ok 25 ∧ countdownValue (.ex1 .binary32) 10 = .ok 256 ∧
    countdownValue (.ex1 .binary32) 39 = .ok 998 ∧
    countdownValue (.ex1 .binary32) 167772159 = .ok 4294967270 ∧
    countdownValue (.ex1 .binary32) 167772160 = .error .durationRange ∧
    countdownValue (.ex1 .binary32) 0xFFFFFFFF = .error .durationRange ∧
    countdownValue (.ex1 .binary32) 0 = .error .badDuration ∧
    countdownValue { Params.ex1 .binary32 with carrierRate := 500 } 1 = .error .badDuration := by decide +kernel

/-! ### Assembler (R80, R81, R82; patterns of 93_implementation_defined.md section 2) -/

theorem test_asm_literals :
    asmFloat "67.0".toList = some 0x42860000 ∧ asmFloat "0.001".toList = some 0x3A83126F ∧
    asmFloat "-1.0".toList = some 0xBF800000 ∧ asmFloat "-0.0".toList = some 0x80000000 ∧
    asmFloat "254.1".toList = some 0x437E199A ∧ asmFloat "6553599.0".toList = some 0x4AC7FFFE ∧
    asmFloat ".5".toList = some 0x3F000000 ∧ asmFloat "5.".toList = some 0x40A00000 ∧
    asmFloat "+5.0".toList = none ∧ asmFloat ".".toList = none ∧
    asmFloat "#0x7FC00000".toList = some 0x7FC00000 ∧ asmFloat "#0x42".toList = none := by decide +kernel

theorem test_asm_lines :
    assembleLine "SETTONE #0x42860000".toList = .ok [⟨.host, 0x4286000000000003#64⟩] ∧
    assembleLine "  setToneFrequency 67.0 ; alias".toList = .ok [⟨.host, 0x4286000000000003#64⟩] ∧
    assembleLine "timedBeep 0xA".toList = .ok [⟨.host, 0x0000000A00000009#64⟩] ∧
    assembleLine "TIMEDBEEP 10".toList = .ok [⟨.host, 0x0000000A00000009#64⟩] ∧
    assembleLine "TIMEDBEEP 0429".toList = .ok [⟨.host, 0x000001AD00000009#64⟩] ∧
    assembleLine "TICKS 24".toList = .ok (List.replicate 24 ⟨.timer, 0x0000000000000080#64⟩) ∧
    assembleLine "TIMEDBEEP 4294967296".toList = .error .badOperand ∧
    assembleLine "INIT 1".toList = .error .operandCount ∧
    assembleLine "NOP".toList = .error .unknownMnemonic := by decide +kernel

theorem test_asm_printed :
    String.ofList (lineOf (.settone 0x42860000)) = "SETTONE #0x42860000" ∧
    assemble (textOf [.init, .settone 0x7FC00000, .timedbeep 0xFFFFFFFF, .tick]) =
      .ok [⟨.host, 0x01#64⟩, ⟨.host, 0x7FC0000000000003#64⟩, ⟨.host, 0xFFFFFFFF00000009#64⟩, ⟨.timer, 0x80#64⟩] := by
  decide +kernel

-- A rate past every countdown refuses every duration (R182; log 8) and is no reason to refuse the configuration (R6).
theorem test_highest_rate :
    let p := { Params.ex1 .binary32 with carrierRate := 1000 * 2 ^ 32 }
    p.valid = true ∧ countdownValue p 1 = .error .durationRange := by decide +kernel

/-! ### One step of each instruction -/

-- TV-C1 and TV-C2.
theorem test_init : (nextOf (exec .init State.reset)).map (fun s => (s.active, s.carrier, s.pin, s.refused)) =
    some (true, .idle, ⟨.driving, .driving⟩, false) := rfl
theorem test_init_twice : (nextOf (exec .init ready)).map (fun s => (s.active, s.refused, s.lastRefusal)) =
    some (true, true, some .alreadyActive) := rfl

-- TV-C8 and TV-C7.
theorem test_shutdown : (nextOf (exec .shutdown { live with acc := ⟨0x20000, 0⟩ })).map
    (fun s => (s.active, s.carrier, s.pin, s.en, s.acc)) =
    some (false, .idle, ⟨.quiescent, .quiescent⟩, ⟨true, false⟩, ⟨0x20000, 0⟩) := rfl
theorem test_shutdown_inactive : exec .shutdown State.reset = .next State.reset := rfl

-- TV-C4 and TV-C13.
theorem test_settone_inactive : (nextOf (exec (.settone 0x42860000) State.reset)).map (·.lastRefusal) =
    some (some .notActive) := rfl
theorem test_settone_negative : (nextOf (exec (.settone 0xBF800000) { live with inc := ⟨43909, 0⟩ })).map
    (fun s => (s.inc, s.lastRefusal)) = some (⟨43909, 0⟩, some .badFrequency) := rfl

-- The same for SETBEEP (R171), with a NaN.
theorem test_setbeep_inactive : (nextOf (exec (.setbeep 0x7FC00000) State.reset)).map (·.lastRefusal) =
    some (some .notActive) := rfl
theorem test_setbeep_nan : (nextOf (exec (.setbeep 0x7FC00000) live)).map (fun s => (s.inc, s.lastRefusal)) =
    some (⟨0, 0⟩, some .badFrequency) := rfl

-- TV-C17 and TV-C3.
theorem test_toneon : (nextOf (exec .toneon ready)).map (fun s => (s.en, s.carrier)) =
    some (⟨true, false⟩, .running) := rfl
theorem test_toneon_inactive : (nextOf (exec .toneon State.reset)).map (fun s => (s.en, s.lastRefusal)) =
    some (⟨false, false⟩, some .notActive) := rfl

-- TV-C19 and TV-S6.
theorem test_toneoff : (nextOf (exec .toneoff live)).map (fun s => (s.en, s.carrier)) =
    some (⟨false, false⟩, .running) := rfl
theorem test_toneoff_idle : exec .toneoff ready = .next ready := rfl

-- TV-C20 and TV-C21.
theorem test_beepon : (nextOf (exec .beepon ready)).map (fun s => (s.en, s.cnt, s.carrier)) =
    some (⟨false, true⟩, 0, .running) := rfl
theorem test_beepon_cancels : (nextOf (exec .beepon { live with en := ⟨false, true⟩, cnt := 100 })).map
    (fun s => (s.en, s.cnt)) = some (⟨false, true⟩, 0) := rfl

-- TV-C22 and TV-S6.
theorem test_beepoff : (nextOf (exec .beepoff { live with en := ⟨false, true⟩, cnt := 100 })).map
    (fun s => (s.en, s.cnt, s.carrier)) = some (⟨false, false⟩, 0, .running) := rfl
theorem test_beepoff_idle : exec .beepoff ready = .next ready := rfl

-- TV-C29 and TV-C6.
theorem test_timedbeep_zero : (nextOf (exec (.timedbeep 0) ready)).map (fun s => (s.en, s.cnt, s.lastRefusal)) =
    some (⟨false, false⟩, 0, some .badDuration) := rfl
theorem test_timedbeep_inactive : (nextOf (exec (.timedbeep 0) State.reset)).map (·.lastRefusal) =
    some (some .notActive) := rfl

-- TV-T3 and TV-T9.
theorem test_tick_expiry : (nextOf (exec .tick
      { live with en := ⟨false, true⟩, inc := ⟨0, 0x10000⟩, acc := ⟨0, 0x10000⟩, cnt := 1 })).map
    (fun s => (s.acc.beep, s.duty.beep, s.cnt, s.en.beep, s.carrier)) =
    some (0x20000, Config.sineTable 2, 0, false, .idle) := rfl
theorem test_tick_idle : (nextOf (exec .tick ready)).map (·.lastRefusal) = some (some .tickWhileIdle) := rfl

/-! ### Derived state and deliveries (R32, R115, R225, R226, R53) -/

theorem test_derived :
    (live.mode .tone, live.mode .beep, State.mode { live with en := ⟨true, true⟩, cnt := 3 } .beep) =
      (.channelOn, .channelOff, .channelTimedOn) ∧
    (live.power, ready.power, State.reset.power) = (.running, .idle, .off) ∧
    (live.lineDuty .tone, live.lineDuty .beep) = (some 0, none) := by decide

theorem test_deliverBytes :
    (nextOf (step (ready.deliverBytes .host [0x04, 0x00, 0x00, 0x00, 0x00, 0x00, 0x00, 0x00]))).map
      (fun s => (s.en, s.carrier, s.port)) = some (⟨true, false⟩, .running, []) := rfl

/-! ### Witnesses: for each statement with hypotheses, a concrete case that meets them (each clause, at boundaries) -/

theorem witness_DecodedWordIsItsEncoding :
    decode .host 0xFFFFFFFF00000003#64 = .ok (.settone 0xFFFFFFFF#32) ∧ decode .timer 0x80#64 = .ok .tick := by decide

theorem witness_ByteStreamCarriesItsWords : 0 < 8 ∧ 7 < 8 := by decide

theorem witness_ReservedFieldIsRefused :
    (withPort live [⟨.host, 0x0000000000000101#64⟩]).port = ⟨.host, 0x0000000000000101#64⟩ :: [] ∧
    (0x0000000000000101#64).extractLsb' 8 24 ≠ 0 ∧ (0x0000000080000080#64).extractLsb' 8 24 ≠ 0 := by decide +kernel

theorem witness_ReservedCodeIsRefused :
    (withPort live [⟨.timer, 0x0A#64⟩]).port = ⟨.timer, 0x0A#64⟩ :: [] ∧
    ∀ w ∈ [0x00#64, 0x0A#64, 0x7F#64, 0x81#64, 0xFF#64], w.extractLsb' 8 24 = 0 ∧
      ((w.extractLsb' 0 8).toNat = 0 ∨
        (0x0A ≤ (w.extractLsb' 0 8).toNat ∧ (w.extractLsb' 0 8).toNat ≤ 0x7F) ∨
        (0x81 ≤ (w.extractLsb' 0 8).toNat ∧ (w.extractLsb' 0 8).toNat ≤ 0xFF)) := by
  simp only [List.mem_cons, List.not_mem_nil, or_false, forall_eq_or_imp, forall_eq]; decide

theorem witness_FormNOperandIsRefused :
    (withPort live [⟨.host, 0x0000000100000001#64⟩]).port = ⟨.host, 0x0000000100000001#64⟩ :: [] ∧
    (∀ w ∈ [0x0000000100000001#64, 0x8000000000000008#64],
      (w.extractLsb' 0 8).toNat ∈ [0x01, 0x02, 0x04, 0x05, 0x07, 0x08] ∧ w.extractLsb' 32 32 ≠ 0) ∧
    ((0x8000000000000080#64).extractLsb' 0 8).toNat = 0x80 ∧ (0x8000000000000080#64).extractLsb' 32 32 ≠ 0 := by
  refine ⟨rfl, ?_, by decide, by decide⟩
  intro w hw
  rcases List.mem_cons.1 hw with rfl | hw
  · decide
  · cases List.mem_singleton.1 hw; decide

theorem witness_TickFromHostIsRefused :
    ∀ w ∈ [0x0000000000000080#64, 0xFFFFFFFF00000080#64],
      (withPort live [⟨.host, w⟩]).port = ⟨.host, w⟩ :: [] ∧ w.extractLsb' 8 24 = 0 ∧ w.extractLsb' 0 8 = 0x80#8 := by
  simp only [List.mem_cons, List.not_mem_nil, or_false, forall_eq_or_imp, forall_eq]; decide

theorem witness_NonTickFromTimerIsRefused :
    ∀ w ∈ [0x0000000000000001#64, 0x00000000000000FF#64],
      (withPort live [⟨.timer, w⟩]).port = ⟨.timer, w⟩ :: [] ∧ w.extractLsb' 8 24 = 0 ∧ w.extractLsb' 0 8 ≠ 0x80#8 := by
  simp only [List.mem_cons, List.not_mem_nil, or_false, forall_eq_or_imp, forall_eq]; decide

theorem witness_StepRunsTheDecodedInstruction :
    (withPort live [⟨.host, 0x05#64⟩]).port = ⟨.host, 0x05#64⟩ :: [] ∧ decode .host 0x05#64 = .ok .toneoff := by decide

theorem witness_UndecodableWordSetsOnlyTheFlag :
    (withPort live [⟨.host, 0x00#64⟩]).port = ⟨.host, 0x00#64⟩ :: [] ∧
    decode .host 0x00#64 = .error .reservedOpcode := by decide

theorem witness_EmptyPortLetsTheTimerTick :
    (live.port = [] ∧ live.active = true ∧ live.carrier = .running) ∧
    (State.reset.port = [] ∧ State.reset.active = false) ∧ (ready.port = [] ∧ ready.carrier = .idle) := by decide

theorem witness_StepKeepsTheFlagOrOnlyRefuses :
    (∃ t, step (withPort ready [⟨.host, 0x04#64⟩]) = .next t) ∧
    ∃ t, step (withPort ready [⟨.host, 0x01#64⟩]) = .next t := ⟨⟨_, rfl⟩, ⟨_, rfl⟩⟩

theorem witness_RefusedFlagIsNeverCleared :
    (∃ t, step (withPort ready [⟨.host, 0x01#64⟩]) = .next t ∧ t.lastRefusal ≠ ready.lastRefusal) ∧
    ∃ t, run 2 (withPort { ready with refused := true } [⟨.host, 0x02#64⟩, ⟨.host, 0x01#64⟩]) = .next t :=
  ⟨⟨_, rfl, by decide⟩, ⟨_, rfl⟩⟩

theorem witness_InitInitialisesAnInactiveModule : State.reset.active = false ∧ ready.active = true := by decide

theorem witness_ShutdownEndsTheSession : State.reset.Inv ∧ State.reset.active = false := by decide

theorem witness_AdmissionOfCommands :
    ready.active = true ∧ State.reset.active = false ∧ agentOf (.timedbeep 0) = .host ∧ Instr.timedbeep 0 ≠ .init ∧
    Instr.timedbeep 0 ≠ .shutdown := by decide

/-- The machine's parameters convert 67.0 (R107). -/
theorem params_convert_67 : ∃ v, toIncrement Config.params hz67 = .ok v := by
  have h := ((Params.valid_iff _).1 Config.params_valid).2.2.2
  unfold Params.meets67 at h
  cases hv : toIncrement Config.params hz67 with
  | ok v => exact ⟨v, rfl⟩
  | error r => rw [hv] at h; cases h

theorem witness_SettoneSetsTheToneIncrement :
    (live.active = true ∧ ∃ v, toIncrement Config.params 0x42860000#32 = .ok v) ∧
    toIncrement Config.params 0x7FC00000#32 = .error .badFrequency ∧ State.reset.active = false :=
  ⟨⟨rfl, params_convert_67⟩, rfl, rfl⟩

theorem witness_SetbeepSetsTheBeepIncrement :
    (live.active = true ∧ ∃ v, toIncrement Config.params 0x42860000#32 = .ok v) ∧
    toIncrement Config.params 0xFF800000#32 = .error .badFrequency ∧ State.reset.active = false :=
  ⟨⟨rfl, params_convert_67⟩, rfl, rfl⟩

theorem witness_ZeroFrequencyFreezesTheChannel :
    (Params.ex1 .binary32).valid = true ∧
    (((f32 0x3A83126F#32).isNaN = false ∧ (f32 0x3A83126F#32).isInf = false ∧ (f32 0x3A83126F#32).isNeg = false) ∧
      conversion (.ex1 .binary64) (f32 0x3A83126F#32) = .fin false (2951479191981261 * 2 ^ 1022) ∧
      2951479191981261 * 2 ^ 1022 < 2 ^ FpFormat.binary64.unitExp) ∧
    ((∃ t, exec .tick live = .next t) ∧ live.inc.tone = 0 ∧ live.inc.beep = 0) ∧
    State.DutyMatches { live with duty := ⟨Config.sineTable 0, Config.sineTable 0⟩ } :=
  ⟨Params.ex1_valid _, by decide +kernel, ⟨⟨_, rfl⟩, rfl, rfl⟩, rfl⟩

theorem witness_ConverterIsMonotone :
    (Params.ex1 .binary32).valid = true ∧ f32 0x80000000#32 = .fin true 0 ∧ (f32 0x80000000#32).isNeg = false ∧
    f32 0x4AC7FFFE#32 = .fin false (6553599 * 2 ^ 149) ∧
    toIncrement (.ex1 .binary32) 0x4AC7FFFE#32 = .ok 0xFFFFFD00#32 := by decide +kernel

/-- With ties (the first two) and, in binary32, just below the overflow and at it. -/
theorem witness_RoundingIsToNearestEven :
    (0 < 1 ∧ 0 < 2 ∧ 1 < 2 ^ 1 ∧ 2 * (3 % (2 * 2 ^ excessBits 1 3 2)) = 2 * 2 ^ excessBits 1 3 2) ∧
    2 * (9 % (1 * 2 ^ excessBits 3 9 1)) = 1 * 2 ^ excessBits 3 9 1 ∧
    roundFp .binary32 true (2 ^ 277 - 2 ^ 252 - 1) 1 = .fin true (2 ^ 277 - 2 ^ 253) ∧
    roundFp .binary32 true (2 ^ 277 - 2 ^ 252) 1 = .inf true := by decide +kernel

theorem witness_SixtySevenHertzWritesEntryZero :
    let s := withPort State.reset (trace [.init, .settone 0x42860000#32, .toneon, .tick])
    s.active = false ∧ s.port = trace [.init, .settone 0x42860000#32, .toneon, .tick] ++ [] := by decide

/-- For ToneonEnablesAndStarts, ToneoffDisablesAndLeavesTheCarrier, BeeponEnablesCancelsAndStarts and (its last clause in
the last state) BeepoffDisablesAndLeavesTheCarrier. -/
theorem witness_ChannelCommands :
    live.active = true ∧ State.reset.active = false ∧ live.carrier = .running ∧ live.en.beep = false ∧
    (let s := { live with en := ⟨false, true⟩ }
     s.active = true ∧ s.carrier = .running ∧ s.en.tone = false) := by decide

theorem witness_OffCommandsAreIdempotent :
    ready.active = true ∧ ready.en = ⟨false, false⟩ ∧ ready.cnt = 0 ∧ ready.carrier = .idle := by decide

/-- Some duration is admitted by TIMEDBEEP under the machine's parameters, unless their rate is `1000 * 2^32` or more
(log 8). -/
theorem params_admit_duration (h : Config.params.carrierRate < 1000 * 2 ^ 32) :
    ∃ d : Word, 0 < d.toNat * Config.params.carrierRate / 1000 ∧
      d.toNat * Config.params.carrierRate / 1000 < 2 ^ 32 := by
  have h0 := ((Params.valid_iff _).1 Config.params_valid).1
  by_cases hr : Config.params.carrierRate < 1000
  · refine ⟨1000, ?_⟩
    simp only [show (1000 : Word).toNat = 1000 from rfl]
    omega
  · refine ⟨1, ?_⟩
    simp only [show (1 : Word).toNat = 1 from rfl]
    omega

/-- Under EX1 both ends of the durations admitted; under the machine's parameters, where their rate admits one (log 8). -/
theorem witness_TimedbeepLoadsTheCountdown :
    (ready.active = true ∧
      (0 < (1#32).toNat * (Params.ex1 .binary32).carrierRate / 1000 ∧
        (1#32).toNat * (Params.ex1 .binary32).carrierRate / 1000 < 2 ^ 32) ∧
      (0 < (167772159#32).toNat * (Params.ex1 .binary64).carrierRate / 1000 ∧
        (167772159#32).toNat * (Params.ex1 .binary64).carrierRate / 1000 < 2 ^ 32)) ∧
    (Config.params.carrierRate < 1000 * 2 ^ 32 → ∃ d : Word, 0 < d.toNat * Config.params.carrierRate / 1000 ∧
      d.toNat * Config.params.carrierRate / 1000 < 2 ^ 32) ∧
    countdownValue Config.params 0 = .error .badDuration ∧ State.reset.active = false :=
  ⟨by decide +kernel, params_admit_duration, rfl, rfl⟩

theorem witness_TimedbeepRefusals :
    (1#32 ≠ 0 ∧ (1#32).toNat * 999 / 1000 = 0) ∧
    (ready.active = true ∧ countdownValue Config.params 0 = .error .badDuration) := ⟨by decide, rfl, rfl⟩

theorem witness_CountdownIsExact : countdownValue (.ex1 .binary32) 167772159#32 = .ok 4294967270#32 := by
  decide +kernel

theorem witness_TickAdvancesCountsAndShutsDown : live.active = true ∧ live.carrier = .running := by decide

theorem witness_TickNeedsARunningCarrier :
    (live.active = true ∧ live.carrier = .running) ∧ State.reset.active = false ∧ ready.carrier = .idle := by decide

/-- With TONE on; and with BEEP alone on, with no countdown, with a longer one, and with one of `n`. -/
theorem witness_PhaseLaw :
    (let s := withPort live (List.replicate 2 (eventOf .tick) ++ [⟨.host, 0x05#64⟩])
     s.active = true ∧ s.carrier = .running ∧ s.en.tone = true ∧
     s.port = List.replicate 2 (eventOf .tick) ++ [⟨.host, 0x05#64⟩] ∧ 0 < 2) ∧
    (∀ cnt ∈ [0#32, 3#32, 2#32],
      let s := withPort { live with en := ⟨false, true⟩, cnt := cnt } (List.replicate 2 (eventOf .tick) ++ [])
      s.active = true ∧ s.carrier = .running ∧ s.en.tone = false ∧
      (s.en.beep = true ∧ (s.cnt = 0 ∨ 2 ≤ s.cnt.toNat)) ∧ s.port = List.replicate 2 (eventOf .tick) ++ []) ∧
    2 < (3#32).toNat ∧ 2#32 ≠ 0 ∧ 2 = (2#32).toNat := by
  simp only [List.mem_cons, List.not_mem_nil, or_false, forall_eq_or_imp, forall_eq]; decide

theorem witness_WraparoundClosure : 0x80000000#32 ≠ 0 ∧ (0x80000000#32).toNat ∣ 2 ^ 32 ∧ 1#32 ≠ 0 ∧
    (1#32).toNat ∣ 2 ^ 32 := by decide +kernel

/-- A countdown of 2 with commands between its ticks: one tick (the first clause), and two, the last of them last (the
second and the third); and TIMEDBEEP itself, with one tick fewer than its count and with its count of ticks, where the
machine's rate admits a duration (log 8). -/
theorem witness_TimedBeepEndsAtItsTick :
    (∀ is ∈ [[Instr.tick], [.tick, .toneoff, .settone 0, .tick]],
      let s := withPort { live with en := ⟨true, true⟩, cnt := 2 } (trace is)
      s.active = true ∧ s.carrier = .running ∧ s.en.beep = true ∧ 2 = s.cnt.toNat ∧ 0 < 2 ∧
      s.port = trace is ++ []) ∧
    ([Instr.tick].count .tick < 2 ∧ [Instr.tick, .toneoff, .settone 0, .tick].count .tick = 2 ∧
      [Instr.tick, .toneoff, .settone 0, .tick].getLast? = some .tick) ∧
    (Config.params.carrierRate < 1000 * 2 ^ 32 →
      ∃ (d : Word) (n : Nat), n = d.toNat * Config.params.carrierRate / 1000 ∧ 0 < n ∧ n < 2 ^ 32 ∧
        (∀ is : List Instr, (withPort live (trace (.timedbeep d :: is))).active = true ∧
          (withPort live (trace (.timedbeep d :: is))).port = trace (.timedbeep d :: is) ++ []) ∧
        (List.replicate (n - 1) Instr.tick).count .tick < n ∧
        (List.replicate n Instr.tick).count .tick = n ∧ (List.replicate n Instr.tick).getLast? = some .tick ∧
        (∀ i ∈ List.replicate n Instr.tick, i = .tick)) := by
  refine ⟨?_, by decide, fun h => ?_⟩
  · simp only [List.mem_cons, List.not_mem_nil, or_false, forall_eq_or_imp, forall_eq]; decide
  obtain ⟨d, h0, h1⟩ := params_admit_duration h
  refine ⟨d, _, rfl, h0, h1, fun is => ⟨rfl, (List.append_nil _).symm⟩, ?_, by simp, ?_, ?_⟩
  · rw [List.count_replicate_self]; omega
  · rw [List.getLast?_replicate, if_neg (by omega)]
  · intro i hi; exact List.eq_of_mem_replicate hi

theorem witness_CarrierStopsAtTheNextTick :
    (let s := withPort { live with en := ⟨false, false⟩ } (trace ([.setbeep 0, .toneoff] ++ [.tick]))
     s.active = true ∧ s.carrier = .running ∧ s.en = ⟨false, false⟩ ∧
     s.port = trace ([.setbeep 0, .toneoff] ++ [.tick]) ++ []) ∧
    (let s := withPort ready (trace [.beepon, .beepoff, .tick])
     s.active = true ∧ s.en.tone = false ∧ s.port = trace [.beepon, .beepoff, .tick] ++ []) := by decide

theorem witness_DutyFollowsPhase :
    ((live.active = true ∧ live.carrier = .running) ∧ ∃ t, exec .tick live = .next t) ∧
    (let s := { live with duty := ⟨Config.sineTable 0, Config.sineTable 0⟩ }
     s.DutyMatches ∧ ∃ t, step s = .next t ∧ (t.active = true → s.active = true)) :=
  ⟨⟨⟨rfl, rfl⟩, ⟨_, rfl⟩⟩, rfl, _, rfl, fun _ => rfl⟩

theorem witness_ChannelsAreIndependent :
    let s₁ := live
    let s₂ := { live with acc := ⟨0, 5⟩, inc := ⟨0, 7⟩, duty := ⟨0, 9⟩ }
    let s₃ := { live with acc := ⟨5, 0⟩, inc := ⟨7, 0⟩, duty := ⟨9, 0⟩ }
    (∃ t, step s₁ = .next t) ∧ (∃ t, step s₂ = .next t) ∧ (∃ t, step s₃ = .next t) ∧
    (s₁.port = s₂.port ∧ s₁.active = s₂.active ∧ s₁.carrier = s₂.carrier ∧ s₁.draws = s₂.draws ∧
      s₁.acc.tone = s₂.acc.tone ∧ s₁.inc.tone = s₂.inc.tone ∧ s₁.duty.tone = s₂.duty.tone) ∧
    (s₁.port = s₃.port ∧ s₁.active = s₃.active ∧ s₁.carrier = s₃.carrier ∧ s₁.draws = s₃.draws ∧
      s₁.acc.beep = s₃.acc.beep ∧ s₁.inc.beep = s₃.inc.beep ∧ s₁.duty.beep = s₃.duty.beep) :=
  ⟨⟨_, rfl⟩, ⟨_, rfl⟩, ⟨_, rfl⟩, ⟨rfl, rfl, rfl, rfl, rfl, rfl, rfl⟩, ⟨rfl, rfl, rfl, rfl, rfl, rfl, rfl⟩⟩

theorem witness_StepKeepsTheStateInvariant : live.Inv ∧ ∃ t, step live = .next t := ⟨by decide, _, rfl⟩

theorem witness_ReachableStatesKeepTheInvariants :
    State.PowerOn (withPort { State.reset with cnt := 7 } [⟨.host, 0x01#64⟩]) ∧
    (∃ t u, run 1 (withPort { State.reset with cnt := 7 } [⟨.host, 0x01#64⟩]) = .next t ∧ t.active = true ∧
      run 1 t = .next u) ∧
    ∃ t u, run 2 (withPort State.reset [⟨.host, 0x01#64⟩, ⟨.host, 0x04#64⟩]) = .next t ∧ t.active = true ∧
      t.carrier = .running ∧ exec .tick t = .next u ∧ u.carrier = .running :=
  ⟨by decide, ⟨_, _, rfl, rfl, rfl⟩, ⟨_, _, rfl, rfl, rfl, rfl, rfl⟩⟩

theorem witness_UnspecifiedPowerOnFieldsAreNeverRead :
    let s₁ := withPort { State.reset with cnt := 7 } [⟨.host, 0x01#64⟩]
    let s₂ := withPort { State.reset with acc := ⟨1, 2⟩ } [⟨.host, 0x01#64⟩]
    s₁.PowerOn ∧ s₂.PowerOn ∧ s₁.port = s₂.port ∧ s₁.draws = s₂.draws ∧
    (∃ t, run 1 s₁ = .next t ∧ t.active = true) ∧ ∃ t, run 1 s₂ = .next t :=
  ⟨by decide, by decide, rfl, rfl, ⟨_, rfl, rfl⟩, ⟨_, rfl⟩⟩

theorem witness_RecordDeterminesTheNextRecord :
    let s₂ := { live with lastRefusal := some .notActive }
    live.observe = s₂.observe ∧ live.port = s₂.port ∧ live.draws = s₂.draws ∧ (∃ t, step live = .next t) ∧
    ∃ t, step s₂ = .next t := ⟨rfl, rfl, rfl, ⟨_, rfl⟩, ⟨_, rfl⟩⟩

theorem witness_CarrierStartsAndStopsOnlyAsStated :
    (∃ t, step (withPort ready [⟨.host, 0x04#64⟩]) = .next t ∧ t.carrier = .running) ∧ ready.carrier = .idle ∧
    (∃ t, step { live with en := ⟨false, false⟩ } = .next t ∧ t.carrier = .idle) ∧ live.carrier = .running ∧
    (State.reset.carrier = .idle ∧ State.reset.port = []) := ⟨⟨_, rfl, rfl⟩, rfl, ⟨_, rfl, rfl⟩, rfl, rfl, rfl⟩

theorem witness_FieldsChangeOnlyByTheirWriters :
    (∃ t, step (withPort State.reset [⟨.host, 0x01#64⟩]) = .next t ∧ t.active ≠ State.reset.active ∧
      t.pin ≠ State.reset.pin) ∧
    (∃ t, step (withPort ready [⟨.host, 0x04#64⟩]) = .next t ∧ t.carrier ≠ ready.carrier ∧
      t.en.tone ≠ ready.en.tone) ∧
    (∃ t, step (withPort { live with cnt := 9 } [⟨.host, 0x07#64⟩]) = .next t ∧ t.en.beep ≠ live.en.beep ∧
      t.cnt ≠ 9) ∧
    (∃ t, step { live with inc := ⟨1, 1⟩ } = .next t ∧ t.acc ≠ live.acc) ∧
    (∃ t, step (withPort { State.reset with inc := ⟨1, 1⟩ } [⟨.host, 0x01#64⟩]) = .next t ∧ t.inc.tone ≠ 1 ∧
      t.inc.beep ≠ 1) ∧
    (∃ t, step (withPort ready [⟨.host, 0x01#64⟩]) = .next t ∧ t.refused ≠ ready.refused) :=
  ⟨⟨_, rfl, by decide, by decide⟩, ⟨_, rfl, by decide, by decide⟩, ⟨_, rfl, by decide, by decide⟩,
   ⟨_, rfl, by decide⟩, ⟨_, rfl, by decide, by decide⟩, ⟨_, rfl, by decide⟩⟩

theorem witness_LineNeedsEnableAndDrive :
    live.lineDuty .tone = some 0 ∧ (∃ t, exec .shutdown live = .next t) := ⟨by decide, _, rfl⟩

/-- A numeral of two digits, the numeral of 0, and hexadecimal digits of either case. -/
theorem witness_TicksStandForTickEvents :
    (∀ ds ∈ [[2, 4], [0]], ds ≠ [] ∧ ∀ d ∈ ds, d < 10) ∧
    ("aF".toList ≠ [] ∧ "aF".toList.map hexDigit = [10, 15].map some) ∧
    asmNat "3".toList = some 3 ∧ asmNat "0x10".toList = some 16 := by
  decide +kernel

theorem witness_AssemblerReadsEveryInstruction : "toneON".toList.map Char.toLower = "ToneOn".toList.map Char.toLower := by
  decide +kernel

/-- The last number of 32 bits and the first past them, in both bases. -/
theorem witness_IntegerLiteralsHaveTheirValues :
    (∀ ds ∈ [[4, 2, 9, 4, 9, 6, 7, 2, 9, 5], [4, 2, 9, 4, 9, 6, 7, 2, 9, 6]], ds ≠ [] ∧ ∀ d ∈ ds, d < 10) ∧
    (Nat.ofDigits 10 [4, 2, 9, 4, 9, 6, 7, 2, 9, 5].reverse < 2 ^ 32 ∧
      ¬Nat.ofDigits 10 [4, 2, 9, 4, 9, 6, 7, 2, 9, 6].reverse < 2 ^ 32) ∧
    ("fFFFFFFF".toList.map hexDigit = (List.replicate 8 15).map some ∧
      "100000000".toList.map hexDigit = (1 :: List.replicate 8 0).map some) ∧
    (Nat.ofDigits 16 (List.replicate 8 15).reverse < 2 ^ 32 ∧
      ¬Nat.ofDigits 16 (1 :: List.replicate 8 0).reverse < 2 ^ 32) := by
  decide +kernel

/-- The quotient 1 / 3 of binary32, 0x3EAAAAAB, and a product that overflows. -/
theorem witness_ArithmeticIsTheRoundedExactResult :
    3 * 2 ^ 149 ≠ 0 ∧
    encodeF32 (fdiv .binary32 (.fin false (1 * 2 ^ 149)) (.fin false (3 * 2 ^ 149))) = 0x3EAAAAAB ∧
    fmul .binary32 (.fin true (2 ^ 276)) (.fin false (2 ^ 150)) = .inf true ∧
    IsRounded .binary32 false (2 ^ 128) (.inf false) :=
  ⟨by decide, by decide +kernel, by decide +kernel, by
    unfold IsRounded
    rw [if_pos]
    simp only [FpFormat.limitExp, FpFormat.precision, FpFormat.unitExp, ← pow_add]
    exact sub_le_self _ (by positivity)⟩

theorem witness_FloatLiteralsHaveTheirValues :
    ((f32 0x80000001#32).isNaN = false ∧ (f32 0xFF800000#32).isNaN = false) ∧
    ((2 ^ 24 - 1) * 2 ^ 253 < 2 ^ 277 ∧ FitsPrecision .binary32 ((2 ^ 24 - 1) * 2 ^ 253)) ∧
    ("4286aF00".toList.length = 8 ∧ "4286aF00".toList.map hexDigit = [4, 2, 8, 6, 10, 15, 0, 0].map some) ∧
    (([6, 7] : List Nat) ≠ [] ∧ ([0] : List Nat) ≠ [] ∧ ∀ d ∈ ([6, 7] : List Nat) ++ [0], d < 10) :=
  ⟨by decide +kernel, ⟨by decide +kernel, 2 ^ 24 - 1, 253, by decide, rfl⟩, by decide +kernel, by decide⟩

end Sys2Proof.Tests
end

section
/-! SUPPORT. What one step does, by what is pending; how a property of every step becomes one of every run; and that the
reason recorded for a refusal is read by no instruction. -/

namespace Sys2Proof.Machine

/-! ### A step, by what is pending -/

/-- A delivery that decodes is taken and performed (R57, R78). -/
theorem step_of_decode_ok {s : State} {e : Event} {rest : List Event} {i : Instr} (hp : s.port = e :: rest)
    (hd : decode e.src e.word = .ok i) : step s = exec i { s with port := rest } := by
  simp only [step, State.pending, hp, hd]

/-- A delivery that does not decode is taken and refused (R10, R78). -/
theorem step_of_decode_error {s : State} {e : Event} {rest : List Event} {r : RefusalReason}
    (hp : s.port = e :: rest) (hd : decode e.src e.word = .error r) :
    step s = .next (({ s with port := rest } : State).refuse r) := by
  simp only [step, State.pending, hp, hd]

/-- With nothing delivered the TIMER ticks where it has a step (log 2). -/
theorem step_of_tickEnabled {s : State} (hp : s.port = []) (ht : s.tickEnabled = true) : step s = exec .tick s := by
  simp only [step, State.pending, hp, ht, if_true]

/-- With nothing delivered and no step of the TIMER the state stays (log 2). -/
theorem step_of_not_tickEnabled {s : State} (hp : s.port = []) (ht : s.tickEnabled = false) : step s = .next s := by
  simp [step, State.pending, hp, ht]

/-! ### From the instructions to the steps, and from the steps to the runs -/

/-- A property that neither the port nor a refusal touches, and that every instruction's effect keeps, is kept by every
step. -/
theorem step_preserves {P : State → Prop} (hport : ∀ (s : State) (rest : List Event), P s → P { s with port := rest })
    (hrefuse : ∀ (s : State) (r : RefusalReason), P s → P (s.refuse r))
    (hperf : ∀ {s t : State} {i : Instr}, P s → Performed s i t → P t)
    {s t : State} (hs : P s) (h : step s = .next t) : P t := by
  rcases step_next_cases h with ⟨_, rfl⟩ | ⟨_, rest, r, _, rfl⟩ | ⟨i, u, _, rfl | ⟨_, rest, _, rfl⟩, hit⟩
  · exact hs
  · exact hrefuse _ r (hport s rest hs)
  · exact hperf hs hit
  · exact hperf (hport s rest hs) hit

/-- A property every step keeps is kept by every run. -/
theorem run_preserves {P : State → Prop} (hstep : ∀ {s t : State}, P s → step s = .next t → P t) {n : Nat}
    {s t : State} (hs : P s) (h : run n s = .next t) : P t := by
  induction n generalizing s with
  | zero => cases h; exact hs
  | succ n ih =>
    obtain ⟨u, hu, hrun⟩ := run_succ_next h
    exact ih (hstep hs hu) hrun

/-- Only INIT and SHUTDOWN have an effect on an inactive module (R160, R131). -/
theorem Performed.of_inactive {s t : State} {i : Instr} (h : Performed s i t) (hs : s.active = false) :
    (i = .init ∧ t = ((((s.setPins .driving).setCarrier .idle).clearChannels).drawDuties).setActive true) ∨
    (i = .shutdown ∧ t = ((s.setCarrier .idle).setPins .quiescent).setActive false) := by
  cases h with
  | init => exact .inl ⟨rfl, rfl⟩
  | shutdown => exact .inr ⟨rfl, rfl⟩
  | settone _ _ h | toneon h | toneoff h | setbeep _ _ h | beepon h | beepoff h | timedbeep _ _ h =>
    exact absurd (hs.symm.trans h) (by decide)
  | tick h => exact absurd (hs.symm.trans ((tickEnabled_iff s).1 h).1) (by decide)

/-! ### The recorded reason is not read (log 4) -/

/-- The state with another recorded reason. -/
def State.withReason (s : State) (r : Option RefusalReason) : State := { s with lastRefusal := r }

/-- The recorded reason is all that the record, the port and the draws leave open. -/
theorem State.eq_withReason {s₁ s₂ : State} (hobs : s₁.observe = s₂.observe) (hport : s₁.port = s₂.port)
    (hdraws : s₁.draws = s₂.draws) : s₂ = s₁.withReason s₂.lastRefusal := by
  cases s₁; cases s₂
  simp_all [State.observe, State.withReason]

theorem State.countDown_withReason (s : State) (r : Option RefusalReason) :
    (s.withReason r).countDown = s.countDown.withReason r := by
  unfold State.countDown
  rw [apply_ite (State.withReason · r), apply_ite (State.withReason · r)]
  rfl

theorem State.autoShutdown_withReason (s : State) (r : Option RefusalReason) :
    (s.withReason r).autoShutdown = s.autoShutdown.withReason r := by
  unfold State.autoShutdown
  rw [apply_ite (State.withReason · r)]
  rfl

/-- An instruction has the same effect whatever reason is recorded, and leaves it. -/
theorem Performed.withReason {s t : State} {i : Instr} (h : Performed s i t) (r : Option RefusalReason) :
    Performed (s.withReason r) i (t.withReason r) := by
  cases h with
  | init h => exact .init h
  | shutdown => exact .shutdown
  | settone bits v h hv => exact .settone bits v h hv
  | toneon h => exact .toneon h
  | toneoff h => exact .toneoff h
  | setbeep bits v h hv => exact .setbeep bits v h hv
  | beepon h => exact .beepon h
  | beepoff h => exact .beepoff h
  | timedbeep d n h hn => exact .timedbeep d n h hn
  | tick h =>
    have hadvance : (s.withReason r).advance = s.advance.withReason r := rfl
    rw [← State.autoShutdown_withReason, ← State.countDown_withReason, ← hadvance]
    exact .tick h

end Sys2Proof.Machine
end

section
/-! PROOFS. The statements of 10_state.md: the invariants of R33 along every run, the fields unspecified at power-on
(R36), and the channel modes (R32). -/

namespace Sys2Proof.Machine

/-! ### Each invariant of R33 under an instruction's effect -/

/-- I1: what turns a channel on starts the carrier, and a tick stops it only with both channels off. -/
theorem Performed.carrierServes {s t : State} {i : Instr} (h : Performed s i t) (hs : s.CarrierServes) :
    t.CarrierServes := by
  intro hactive hen
  cases h with
  | init => simp at hen
  | shutdown => simp at hactive
  | settone | setbeep => exact hs hactive hen
  | toneon | beepon | timedbeep => rfl
  | toneoff => exact hs hactive (.inr (by simpa using hen))
  | beepoff => exact hs hactive (.inl (by simpa using hen))
  | tick h =>
    rw [State.autoShutdown_en] at hen
    rw [State.autoShutdown_carrier, if_pos (by simpa using hen), State.countDown_carrier]
    exact ((tickEnabled_iff s).1 h).2

/-- I2: an instruction that turns BEEP off clears the countdown, and so does the tick whose countdown expires. -/
theorem Performed.countdownOwned {s t : State} {i : Instr} (h : Performed s i t) (hs : s.CountdownOwned) :
    t.CountdownOwned := by
  intro hbeep
  cases h with
  | init | beepon | beepoff => rfl
  | shutdown | settone | setbeep | toneon | toneoff => exact hs hbeep
  | timedbeep => simp at hbeep
  | tick =>
    rw [State.autoShutdown_cnt, State.countDown_cnt]
    rw [State.autoShutdown_en, State.countDown_en_beep] at hbeep
    by_cases hone : s.cnt = 1
    · simp [hone]
    · rw [State.advance_en, State.advance_cnt, bne_iff_ne.2 hone, Bool.and_true] at hbeep
      simp [hs hbeep]

/-- I3: only SHUTDOWN ends a session, and it stops the carrier. -/
theorem Performed.idleOutside {s t : State} {i : Instr} (h : Performed s i t) : t.IdleOutside := by
  intro hinactive
  cases h with
  | init => simp at hinactive
  | shutdown => rfl
  | settone _ _ h | toneon h | toneoff h | setbeep _ _ h | beepon h | beepoff h | timedbeep _ _ h =>
    exact absurd (hinactive.symm.trans h) (by decide)
  | tick h =>
    rw [State.autoShutdown_active, State.countDown_active, State.advance_active] at hinactive
    exact absurd (hinactive.symm.trans ((tickEnabled_iff s).1 h).1) (by decide)

/-- I4: INIT and SHUTDOWN set the lines with the session; nothing else writes either. -/
theorem Performed.pinsFollow {s t : State} {i : Instr} (h : Performed s i t) (hs : s.PinsFollow) : t.PinsFollow := by
  cases h with
  | init | shutdown => rfl
  | settone | toneon | toneoff | setbeep | beepon | beepoff | timedbeep => exact hs
  | tick => simpa [State.PinsFollow] using hs

/-! ### R33 along the runs -/

/-- What every run from power-on keeps: I1, I3, I4, and I2 while the module is active. -/
structure State.ReachableInv (s : State) : Prop where
  carrierServes : s.CarrierServes
  idleOutside : s.IdleOutside
  pinsFollow : s.PinsFollow
  countdownOwned : s.active = true → s.CountdownOwned

/-- At power-on I2 is not asked, and I1 has no premise. -/
theorem State.PowerOn.reachableInv {s : State} (h : s.PowerOn) : s.ReachableInv := by
  obtain ⟨hactive, hcarrier, hpin, -⟩ := h
  have hout : ¬s.active = true := by simp [hactive]
  exact ⟨fun ha => absurd ha hout, fun _ => hcarrier, hpin.trans (if_neg hout).symm, fun ha => absurd ha hout⟩

/-- I2 needs no more than to hold while the module is active: INIT, which alone begins a session, clears the countdown. -/
theorem Performed.reachableInv {s t : State} {i : Instr} (h : Performed s i t) (hs : s.ReachableInv) :
    t.ReachableInv where
  carrierServes := h.carrierServes hs.carrierServes
  idleOutside := h.idleOutside
  pinsFollow := h.pinsFollow hs.pinsFollow
  countdownOwned ht := by
    cases hactive : s.active with
    | true => exact h.countdownOwned (hs.countdownOwned hactive)
    | false =>
      rcases h.of_inactive hactive with ⟨-, rfl⟩ | ⟨-, rfl⟩
      · exact fun _ => rfl
      · simp at ht

theorem step_keeps_reachableInv {s t : State} (hs : s.ReachableInv) (h : step s = .next t) : t.ReachableInv :=
  step_preserves (P := State.ReachableInv) (fun _ _ ⟨h₁, h₃, h₄, h₂⟩ => ⟨h₁, h₃, h₄, h₂⟩)
    (fun _ _ ⟨h₁, h₃, h₄, h₂⟩ => ⟨h₁, h₃, h₄, h₂⟩) (fun hs h => h.reachableInv hs) hs h

theorem step_keeps_countdownOwned {s t : State} (hs : s.CountdownOwned) (h : step s = .next t) : t.CountdownOwned :=
  step_preserves (P := State.CountdownOwned) (fun _ _ h => h) (fun _ _ h => h) (fun hs h => h.countdownOwned hs) hs h

/-- The converse of I1 after a TICK: auto-shutdown leaves the carrier running only with a channel on (R134). -/
theorem channel_on_of_running_after_tick {s t : State} (hs : s.tickEnabled = true) (h : exec .tick s = .next t)
    (hrunning : t.carrier = .running) : t.en.tone = true ∨ t.en.beep = true := by
  rw [exec_of_performed (.tick hs)] at h
  cases h
  rcases autoShutdown_cases s.advance.countDown with ⟨hon, he⟩ | ⟨-, -, he⟩
  · rwa [he]
  · simp [he] at hrunning

/-- Settles O48: the invariant of the reachable states along the run, and I2 by itself along every further run. -/
theorem reachableStatesKeepTheInvariants : Obligations.ReachableStatesKeepTheInvariants := by
  intro s t n hs hrun
  have ht : t.ReachableInv := run_preserves step_keeps_reachableInv hs.reachableInv hrun
  refine ⟨ht.carrierServes, ht.idleOutside, ht.pinsFollow, fun hactive m u hfurther => ?_,
    fun u hactive hrunning htick hcarrier => ?_⟩
  · exact run_preserves (P := State.CountdownOwned) step_keeps_countdownOwned (ht.countdownOwned hactive) hfurther
  · exact channel_on_of_running_after_tick ((tickEnabled_iff t).2 ⟨hactive, hrunning⟩) htick hcarrier

/-! ### R36: the fields unspecified at power-on -/

/-- Two states alike in all that a run from power-on can read: everything but the recorded reason in a session, and
outside one no channel field either. -/
structure State.Alike (s₁ s₂ : State) : Prop where
  port : s₁.port = s₂.port
  draws : s₁.draws = s₂.draws
  active : s₁.active = s₂.active
  carrier : s₁.carrier = s₂.carrier
  pin : s₁.pin = s₂.pin
  refused : s₁.refused = s₂.refused
  record : s₁.active = true → s₁.observe = s₂.observe

theorem State.PowerOn.alike {s₁ s₂ : State} (h₁ : s₁.PowerOn) (h₂ : s₂.PowerOn) (hport : s₁.port = s₂.port)
    (hdraws : s₁.draws = s₂.draws) : s₁.Alike s₂ := by
  obtain ⟨hactive₁, hcarrier₁, hpin₁, hrefused₁⟩ := h₁
  obtain ⟨hactive₂, hcarrier₂, hpin₂, hrefused₂⟩ := h₂
  exact ⟨hport, hdraws, hactive₁.trans hactive₂.symm, hcarrier₁.trans hcarrier₂.symm, hpin₁.trans hpin₂.symm,
    hrefused₁.trans hrefused₂.symm, fun ha => absurd (hactive₁.symm.trans ha) (by decide)⟩

namespace State.Alike

theorem symm {s₁ s₂ : State} (h : s₁.Alike s₂) : s₂.Alike s₁ :=
  ⟨h.port.symm, h.draws.symm, h.active.symm, h.carrier.symm, h.pin.symm, h.refused.symm,
    fun ha => (h.record (h.active.trans ha)).symm⟩

theorem withReason (s : State) (r : Option RefusalReason) : s.Alike (s.withReason r) :=
  ⟨rfl, rfl, rfl, rfl, rfl, rfl, fun _ => rfl⟩

/-- In a session the recorded reason is the only difference. -/
theorem eq_withReason {s₁ s₂ : State} (h : s₁.Alike s₂) (ha : s₁.active = true) :
    s₂ = s₁.withReason s₂.lastRefusal := State.eq_withReason (h.record ha) h.port h.draws

theorem tickEnabled {s₁ s₂ : State} (h : s₁.Alike s₂) : s₁.tickEnabled = s₂.tickEnabled := by
  simp only [State.tickEnabled, h.active, h.carrier]

theorem withPort {s₁ s₂ : State} (h : s₁.Alike s₂) (rest : List Event) :
    ({ s₁ with port := rest } : State).Alike { s₂ with port := rest } :=
  ⟨rfl, h.draws, h.active, h.carrier, h.pin, h.refused, h.record⟩

/-- Refusals of states alike are alike, whatever their reasons. -/
theorem refuse {s₁ s₂ : State} (h : s₁.Alike s₂) (r₁ r₂ : RefusalReason) : (s₁.refuse r₁).Alike (s₂.refuse r₂) where
  port := h.port
  draws := h.draws
  active := h.active
  carrier := h.carrier
  pin := h.pin
  refused := rfl
  record ha := congrArg (fun o : Observation => { o with refused := true }) (h.record ha)

/-- INIT overwrites every field that may differ, with draws that do not (R163). -/
theorem init {s₁ s₂ : State} (h : s₁.Alike s₂) :
    State.Alike (((((s₁.setPins .driving).setCarrier .idle).clearChannels).drawDuties).setActive true)
      (((((s₂.setPins .driving).setCarrier .idle).clearChannels).drawDuties).setActive true) where
  port := h.port
  draws := congrArg (· + 2) h.draws
  active := rfl
  carrier := rfl
  pin := rfl
  refused := h.refused
  record _ := by simp [State.observe, h.draws, h.refused]

/-- SHUTDOWN writes no channel field, and ends the session in which they would be read (R166). -/
theorem shutdown {s₁ s₂ : State} (h : s₁.Alike s₂) :
    State.Alike (((s₁.setCarrier .idle).setPins .quiescent).setActive false)
      (((s₂.setCarrier .idle).setPins .quiescent).setActive false) :=
  ⟨h.port, h.draws, rfl, rfl, rfl, h.refused, fun ha => nomatch ha⟩

/-- An instruction admitted in one of two states alike is admitted in the other, and its effects are alike. -/
theorem performed {s₁ s₂ t₁ : State} {i : Instr} (h : s₁.Alike s₂) (h₁ : Performed s₁ i t₁) :
    ∃ t₂, Performed s₂ i t₂ ∧ t₁.Alike t₂ := by
  cases hactive : s₁.active with
  | true =>
    rw [h.eq_withReason hactive]
    exact ⟨_, h₁.withReason _, .withReason t₁ _⟩
  | false =>
    rcases h₁.of_inactive hactive with ⟨rfl, rfl⟩ | ⟨rfl, rfl⟩
    · exact ⟨_, .init (h.active.symm.trans hactive), h.init⟩
    · exact ⟨_, .shutdown, h.shutdown⟩

/-- An instruction that has its effect in one of two states alike answers alike in the other. -/
theorem exec_of_performed {s₁ s₂ t₁ t₂ : State} {i : Instr} (h : s₁.Alike s₂) (h₁ : Performed s₁ i t₁)
    (h₂ : exec i s₂ = .next t₂) : t₁.Alike t₂ := by
  obtain ⟨u, hu, hlike⟩ := h.performed h₁
  rw [Machine.exec_of_performed hu] at h₂
  cases h₂
  exact hlike

/-- States alike are taken to states alike by every instruction: it has its effect in both or is refused in both. -/
theorem exec {s₁ s₂ t₁ t₂ : State} {i : Instr} (h : s₁.Alike s₂) (h₁ : Machine.exec i s₁ = .next t₁)
    (h₂ : Machine.exec i s₂ = .next t₂) : t₁.Alike t₂ := by
  rcases exec_cases h₁ with ⟨r₁, rfl⟩ | hperf₁
  · rcases exec_cases h₂ with ⟨r₂, rfl⟩ | hperf₂
    · exact h.refuse r₁ r₂
    · exact (h.symm.exec_of_performed hperf₂ h₁).symm
  · exact h.exec_of_performed hperf₁ h₂

/-- States alike are taken to states alike by every step. -/
theorem step {s₁ s₂ t₁ t₂ : State} (h : s₁.Alike s₂) (h₁ : Machine.step s₁ = .next t₁)
    (h₂ : Machine.step s₂ = .next t₂) : t₁.Alike t₂ := by
  rcases pending_cases s₁ with ⟨e, rest, i, hp, hd, -⟩ | ⟨e, rest, r, hp, hd, -⟩ | ⟨hp, ht, -⟩ | ⟨hp, ht, -⟩
  · rw [step_of_decode_ok hp hd] at h₁
    rw [step_of_decode_ok (h.port ▸ hp) hd] at h₂
    exact (h.withPort rest).exec h₁ h₂
  · rw [step_of_decode_error hp hd] at h₁
    rw [step_of_decode_error (h.port ▸ hp) hd] at h₂
    cases h₁; cases h₂
    exact (h.withPort rest).refuse r r
  · rw [step_of_tickEnabled hp ht] at h₁
    rw [step_of_tickEnabled (h.port ▸ hp) (h.tickEnabled ▸ ht)] at h₂
    exact h.exec h₁ h₂
  · rw [step_of_not_tickEnabled hp ht] at h₁
    rw [step_of_not_tickEnabled (h.port ▸ hp) (h.tickEnabled ▸ ht)] at h₂
    cases h₁; cases h₂
    exact h

/-- Runs of one length from states alike end in states alike. -/
theorem run {s₁ s₂ t₁ t₂ : State} {n : Nat} (h : s₁.Alike s₂) (h₁ : Machine.run n s₁ = .next t₁)
    (h₂ : Machine.run n s₂ = .next t₂) : t₁.Alike t₂ := by
  induction n generalizing s₁ s₂ with
  | zero => cases h₁; cases h₂; exact h
  | succ n ih =>
    obtain ⟨u₁, hu₁, hrun₁⟩ := run_succ_next h₁
    obtain ⟨u₂, hu₂, hrun₂⟩ := run_succ_next h₂
    exact ih (h.step hu₁ hu₂) hrun₁ hrun₂

end State.Alike

/-- Settles O49: power-on states with the same deliveries and draws are alike, and runs keep them so. -/
theorem unspecifiedPowerOnFieldsAreNeverRead : Obligations.UnspecifiedPowerOnFieldsAreNeverRead := by
  refine ⟨⟨rfl, rfl, rfl, rfl⟩, fun s₁ s₂ t₁ t₂ n hs₁ hs₂ hport hdraws hrun₁ hrun₂ => ?_⟩
  have h : t₁.Alike t₂ := (hs₁.alike hs₂ hport hdraws).run hrun₁ hrun₂
  exact ⟨h.active, h.carrier, h.pin, h.refused, h.record⟩

/-! ### R32: the channel modes -/

theorem State.mode_tone (s : State) : s.mode .tone = if s.en.tone then .channelOn else .channelOff := rfl

theorem State.mode_beep (s : State) :
    s.mode .beep = if s.en.beep then (if s.cnt = 0 then .channelOn else .channelTimedOn) else .channelOff := rfl

/-- Settles O53: the modes of TONE by its enable, those of BEEP by its enable and then the countdown. -/
theorem channelModesAreDerived : Obligations.ChannelModesAreDerived := by
  intro s
  rw [State.mode_tone, State.mode_beep]
  refine and_assoc.1 ⟨?tone, ?beep⟩
  case tone => cases s.en.tone <;> simp
  case beep =>
    cases s.en.beep with
    | false => simp
    | true =>
      by_cases hcnt : s.cnt = 0
      · rw [if_pos hcnt]; simp [hcnt]
      · rw [if_neg hcnt]; simpa using hcnt

end Sys2Proof.Machine
end

section
/-! SUPPORT. The decoder, branch by branch in the order of R78; that it reads back the encoder's words; and the eight
bytes of a word (30_encoding.md R71 to R79). -/

namespace Sys2Proof

/-! ### The branches of R78 -/

/-- R76 comes first, whatever the code and the agent. -/
theorem decode_of_rsvField_ne_zero {src : Agent} {w : CmdWord} (hrsv : rsvField w ≠ 0) :
    decode src w = .error .reservedBits := by
  simp only [decode, if_pos hrsv]

theorem decode_host_of_tickCode {w : CmdWord} (hrsv : rsvField w = 0) (hopc : opcField w = 0x80) :
    decode .host w = .error .tickFromHost := by
  simp [decode, hrsv, hopc]

theorem decode_timer_of_tickCode {w : CmdWord} (hrsv : rsvField w = 0) (hopc : opcField w = 0x80) :
    decode .timer w = if opndField w ≠ 0 then .error .reservedBits else .ok .tick := by
  simp [decode, hrsv, hopc]

/-- The TIMER delivers no code but 0x80. -/
theorem decode_timer_of_not_tickCode {w : CmdWord} (hrsv : rsvField w = 0) (hopc : opcField w ≠ 0x80) :
    decode .timer w = .error .reservedOpcode := by
  simp only [decode, if_neg (not_not_intro hrsv), if_neg hopc, if_true]

/-- The code of TICK has no row in the host's map. -/
theorem ne_tickCode_of_hostRow {opc : Byte} {row : Form × (Word → Instr)} (hrow : hostRow opc = some row) :
    opc ≠ 0x80 := by
  rintro rfl
  cases hrow

theorem decode_host_of_hostRow {w : CmdWord} {form : Form} {make : Word → Instr} (hrsv : rsvField w = 0)
    (hrow : hostRow (opcField w) = some (form, make)) :
    decode .host w =
      if form = .n ∧ opndField w ≠ 0 then .error .reservedBits else .ok (make (opndField w)) := by
  simp only [decode, if_neg (not_not_intro hrsv), if_neg (ne_tickCode_of_hostRow hrow), reduceCtorEq, if_false, hrow]

/-- R75: a code that is neither TICK's nor in the host's map is reserved for both agents. -/
theorem decode_of_hostRow_none {src : Agent} {w : CmdWord} (hrsv : rsvField w = 0) (hopc : opcField w ≠ 0x80)
    (hrow : hostRow (opcField w) = none) : decode src w = .error .reservedOpcode := by
  cases src with
  | host => simp only [decode, if_neg (not_not_intro hrsv), if_neg hopc, reduceCtorEq, if_false, hrow]
  | timer => exact decode_timer_of_not_tickCode hrsv hopc

/-! ### Rows of the host's map -/

theorem hostRow_eq_none_iff (opc : Byte) : hostRow opc = none ↔ opc.toNat = 0 ∨ 0x0A ≤ opc.toNat := by
  rw [← Option.not_isSome_iff_eq_none, hostRow_isSome_iff]
  omega

/-- R73: the six host commands without an operand. -/
theorem hostRow_of_formN {opc : Byte} (hopc : opc.toNat ∈ [0x01, 0x02, 0x04, 0x05, 0x07, 0x08]) :
    ∃ make, hostRow opc = some (.n, make) := by
  simp only [List.mem_cons, List.not_mem_nil, or_false] at hopc
  unfold hostRow
  rcases hopc with h | h | h | h | h | h <;> rw [h] <;> exact ⟨_, rfl⟩

/-! ### Words refused by their code or operand -/

/-- R75: the reserved codes are those that are neither TICK's nor in the host's map. -/
theorem decode_of_reservedCode {src : Agent} {w : CmdWord} (hrsv : rsvField w = 0)
    (hcode : (opcField w).toNat = 0 ∨ (0x0A ≤ (opcField w).toNat ∧ (opcField w).toNat ≤ 0x7F) ∨
      (0x81 ≤ (opcField w).toNat ∧ (opcField w).toNat ≤ 0xFF)) : decode src w = .error .reservedOpcode := by
  have htick : opcField w ≠ 0x80 := by
    intro h
    rw [h] at hcode
    revert hcode
    decide
  have hrow : hostRow (opcField w) = none := (hostRow_eq_none_iff _).2 (by omega)
  exact decode_of_hostRow_none hrsv htick hrow

/-- R77: a form-N word with an operand does not decode: with a zero `RSV` its operand is what is refused, and otherwise
`RSV` is, for the same reason. -/
theorem decode_of_formN_operand {src : Agent} {w : CmdWord}
    (hform : (src = .host ∧ (opcField w).toNat ∈ [0x01, 0x02, 0x04, 0x05, 0x07, 0x08]) ∨
      (src = .timer ∧ (opcField w).toNat = 0x80))
    (hopnd : opndField w ≠ 0) : decode src w = .error .reservedBits := by
  by_cases hrsv : rsvField w = 0
  · rcases hform with ⟨rfl, hopc⟩ | ⟨rfl, hopc⟩
    · obtain ⟨make, hrow⟩ := hostRow_of_formN hopc
      rw [decode_host_of_hostRow hrsv hrow, if_pos ⟨rfl, hopnd⟩]
    · rw [decode_timer_of_tickCode hrsv (BitVec.eq_of_toNat_eq hopc), if_pos hopnd]
  · exact decode_of_rsvField_ne_zero hrsv

/-! ### The encoder's words -/

/-- A packed word of the host decodes by the row of its code. -/
theorem decode_packWord_of_hostRow {opc : Byte} {opnd : Word} {form : Form} {make : Word → Instr}
    (hrow : hostRow opc = some (form, make)) (hopnd : form = .n → opnd = 0) :
    decode .host (packWord opc opnd) = .ok (make opnd) := by
  rw [← opcField_packWord opc opnd] at hrow
  rw [decode_host_of_hostRow (rsvField_packWord opc opnd) hrow, opndField_packWord, if_neg]
  exact fun ⟨hform, hne⟩ => hne (hopnd hform)

theorem decode_packWord_of_hostRow_formN {opc : Byte} {i : Instr} (hrow : hostRow opc = some (.n, fun _ => i)) :
    decode .host (packWord opc 0) = .ok i :=
  decode_packWord_of_hostRow hrow fun _ => rfl

theorem decode_timer_packWord_tickCode : decode .timer (packWord 0x80 0) = .ok .tick := by
  rw [decode_timer_of_tickCode (rsvField_packWord _ _) (opcField_packWord _ _), opndField_packWord]
  rfl

/-- The decoder reads back every encoding from its agent (R71 to R74, R78). -/
theorem decode_encode (i : Instr) : decode (agentOf i) (encode i) = .ok i := by
  cases i with
  | tick => exact decode_timer_packWord_tickCode
  | settone | setbeep | timedbeep => exact decode_packWord_of_hostRow rfl nofun
  | init | shutdown | toneon | toneoff | beepon | beepoff => exact decode_packWord_of_hostRow_formN rfl

/-! ### The bytes of a word (R53, R79) -/

theorem bytesOfWord_eq_map (w : CmdWord) :
    bytesOfWord w = (List.range 8).map fun k => w.extractLsb' (8 * k) 8 := rfl

/-- A byte put back in its place has the word's bits there and none elsewhere. -/
theorem getLsbD_extractLsb'_shiftLeft (w : CmdWord) {k i : Nat} (hi : i < 64) :
    ((w.extractLsb' k 8).setWidth 64 <<< k).getLsbD i = (decide (k ≤ i ∧ i < k + 8) && w.getLsbD i) := by
  by_cases hk : k ≤ i
  · have hsub : i - k < 8 ↔ i < k + 8 := by omega
    have hadd : k + (i - k) = i := by omega
    simp [hi, hk, hsub, hadd, Nat.not_lt.2 hk]
  · simp [hk, Nat.not_le.1 hk]

/-- The eight bytes of a word put back in their places make the word: every bit lies in one of them. -/
theorem wordOfBytes_bytesOfWord (w : CmdWord) :
    wordOfBytes (w.extractLsb' 0 8) (w.extractLsb' 8 8) (w.extractLsb' 16 8) (w.extractLsb' 24 8)
      (w.extractLsb' 32 8) (w.extractLsb' 40 8) (w.extractLsb' 48 8) (w.extractLsb' 56 8) = w := by
  apply BitVec.eq_of_getLsbD_eq
  intro i hi
  have hlow : ((w.extractLsb' 0 8).setWidth 64).getLsbD i = (decide (0 ≤ i ∧ i < 0 + 8) && w.getLsbD i) := by
    simpa using getLsbD_extractLsb'_shiftLeft w (k := 0) hi
  simp only [wordOfBytes, BitVec.getLsbD_or, hlow, getLsbD_extractLsb'_shiftLeft w hi]
  cases w.getLsbD i with
  | false => simp
  | true =>
    simp only [Bool.and_true, ← Bool.decide_or, decide_eq_true_eq]
    omega

/-- A stream that begins with a word's bytes begins with the word. -/
theorem wordsOfBytes_bytesOfWord_append (w : CmdWord) (rest : List Byte) :
    wordsOfBytes (bytesOfWord w ++ rest) = w :: wordsOfBytes rest :=
  congrArg (· :: wordsOfBytes rest) (wordOfBytes_bytesOfWord w)

end Sys2Proof
end

section
/-! PROOFS. The statements of 30_encoding.md on the words and bytes, and on the words the decoder refuses. -/

namespace Sys2Proof.Machine

/-- Settles O5, by induction on the words: the stream of the first one's bytes and the rest begins with it. -/
theorem byteStreamCarriesItsWords : Obligations.ByteStreamCarriesItsWords := by
  refine ⟨fun ws => ?_, fun w => ?_, fun w k hk => ?_⟩
  · induction ws with
    | nil => rfl
    | cons w ws ih => rw [List.flatMap_cons, wordsOfBytes_bytesOfWord_append, ih]
  · rw [bytesOfWord_eq_map, List.length_map, List.length_range]
  · rw [bytesOfWord_eq_map, List.getElem?_map, List.getElem?_range hk, Option.map_some]

/-- Settles O4: each word is its instruction's encoding by computation, and so the decoder reads it back. -/
theorem workedEncodings : Obligations.WorkedEncodings := by
  have hinit : encode .init = 0x0000000000000001#64 := by decide
  have hsettone : encode (.settone 0x42860000#32) = 0x4286000000000003#64 := by decide
  have htoneon : encode .toneon = 0x0000000000000004#64 := by decide
  have htimedbeep : encode (.timedbeep 10#32) = 0x0000000A00000009#64 := by decide
  have htick : encode .tick = 0x0000000000000080#64 := by decide
  have hsetbeep : encode (.setbeep 0x42C80000#32) = 0x42C8000000000006#64 := by decide
  exact ⟨hinit, hinit ▸ decode_encode .init, hsettone, hsettone ▸ decode_encode (.settone _), by decide,
    htoneon, htoneon ▸ decode_encode .toneon, htimedbeep, htimedbeep ▸ decode_encode (.timedbeep _),
    htick, htick ▸ decode_encode .tick, hsetbeep, hsetbeep ▸ decode_encode (.setbeep _), by decide, by decide⟩

/-- Settles O6: the check of `RSV` is the decoder's first. -/
theorem reservedFieldIsRefused : Obligations.ReservedFieldIsRefused := by
  intro s e rest hport hrsv
  exact step_of_decode_error hport (decode_of_rsvField_ne_zero hrsv)

/-- Settles O7, by the decoder's answer to the word, which is the same for both agents. -/
theorem reservedCodeIsRefused : Obligations.ReservedCodeIsRefused := by
  intro s e rest hport hrsv hcode
  exact step_of_decode_error hport (decode_of_reservedCode hrsv hcode)

/-- Settles O8, by the decoder's answer to the word. -/
theorem formNOperandIsRefused : Obligations.FormNOperandIsRefused := by
  intro s e rest hport hform hopnd
  exact step_of_decode_error hport (decode_of_formN_operand hform hopnd)

/-- Settles O9: the word of TICK decodes from its agent as every encoding does, and its code from the HOST has a refusal
of its own. -/
theorem tickFromHostIsRefused : Obligations.TickFromHostIsRefused := by
  have htick : encode .tick = 0x0000000000000080#64 := by decide
  refine ⟨htick, rfl, htick ▸ decode_encode .tick, fun s w rest hport hrsv hopc => ?_⟩
  exact step_of_decode_error hport (decode_host_of_tickCode hrsv hopc)

end Sys2Proof.Machine
end

section
/-! SUPPORT. Rounding is monotone, and so is each operation of the converter in the order of magnitudes; what the
converter answers in its domain, and for a zero (spec 00_scope.md R9, 40_datapath.md R105 to R109). -/

namespace Sys2Proof

/-! ### Rounding -/

theorem lt_two_pow_bitLength (n : Nat) : n < 2 ^ bitLength n := by
  unfold bitLength
  split
  · omega
  · exact Nat.lt_log2_self

theorem two_pow_le_of_lt_bitLength {n k : Nat} (h : k < bitLength n) : 2 ^ k ≤ n := by
  unfold bitLength at h
  split at h
  · omega
  case isFalse hn =>
    exact (Nat.pow_le_pow_right two_pos (Nat.le_of_lt_succ h)).trans (Nat.log2_self_le hn)

theorem bitLength_mono {m n : Nat} (h : m ≤ n) : bitLength m ≤ bitLength n := by
  by_contra hlt
  have hpow := two_pow_le_of_lt_bitLength (Nat.lt_of_not_le hlt)
  have hn := lt_two_pow_bitLength n
  omega

/-- A whole number nearest to a quotient is its floor or the next one. -/
theorem roundToEven_bounds (num den : Nat) :
    num / den ≤ roundToEven num den ∧ roundToEven num den ≤ num / den + 1 := by
  unfold roundToEven
  dsimp only
  split_ifs <;> omega

/-- Over one denominator a greater numerator rounds to no less: its floor is greater, or its floor is the same and its
remainder no less. -/
theorem roundToEven_mono {a b den : Nat} (h : a ≤ b) : roundToEven a den ≤ roundToEven b den := by
  rcases (Nat.div_le_div_right h : a / den ≤ b / den).lt_or_eq with hlt | heq
  · have ha := (roundToEven_bounds a den).2
    have hb := (roundToEven_bounds b den).1
    omega
  · have hrem : a % den ≤ b % den := by
      have ha := Nat.div_add_mod a den
      have hb := Nat.div_add_mod b den
      rw [heq] at ha
      omega
    unfold roundToEven
    dsimp only
    rw [heq]
    split_ifs <;> omega

theorem excessBits_mono {prec a b den : Nat} (h : a ≤ b) : excessBits prec a den ≤ excessBits prec b den :=
  Nat.sub_le_sub_right (bitLength_mono (Nat.div_le_div_right h)) prec

/-- Rounding stays within the binary digits kept and those dropped. -/
theorem roundUnits_le_two_pow (prec num den : Nat) :
    roundUnits prec num den ≤ 2 ^ (prec + excessBits prec num den) := by
  have hfloor : num / (den * 2 ^ excessBits prec num den) < 2 ^ prec := by
    rw [← Nat.div_div_eq_div_mul]
    refine Nat.div_lt_of_lt_mul ?_
    rw [← pow_add]
    refine (lt_two_pow_bitLength _).trans_le (Nat.pow_le_pow_right two_pos ?_)
    unfold excessBits
    omega
  have hround := (roundToEven_bounds num (den * 2 ^ excessBits prec num den)).2
  rw [pow_add]
  exact Nat.mul_le_mul_right _ (by omega)

/-- Where digits are dropped, rounding keeps the leading one. -/
theorem two_pow_le_roundUnits {prec num den k : Nat} (hk : excessBits prec num den = k + 1) (hprec : 0 < prec) :
    2 ^ (prec + k) ≤ roundUnits prec num den := by
  have hlead : 2 ^ (prec + k) ≤ num / den := two_pow_le_of_lt_bitLength (by unfold excessBits at hk; omega)
  have hsplit : (2 : Nat) ^ (prec + k) = 2 ^ (prec - 1) * 2 ^ (k + 1) := by
    rw [← pow_add]; congr 1; omega
  have hfloor : 2 ^ (prec - 1) ≤ num / (den * 2 ^ (k + 1)) := by
    rw [← Nat.div_div_eq_div_mul, Nat.le_div_iff_mul_le (by positivity), ← hsplit]
    exact hlead
  unfold roundUnits
  rw [hk, hsplit]
  exact Nat.mul_le_mul_right _ (hfloor.trans (roundToEven_bounds _ _).1)

/-- Rounding to a significand is monotone (R109): with as many digits dropped it rounds one and the same way, and with
fewer dropped it stays below the leading digit of the greater one. -/
theorem roundUnits_mono {prec a b den : Nat} (hprec : 0 < prec) (h : a ≤ b) :
    roundUnits prec a den ≤ roundUnits prec b den := by
  rcases (excessBits_mono (prec := prec) (den := den) h).lt_or_eq with hlt | heq
  · obtain ⟨k, hk⟩ : ∃ k, excessBits prec b den = k + 1 := Nat.exists_eq_succ_of_ne_zero (by omega)
    calc roundUnits prec a den ≤ 2 ^ (prec + excessBits prec a den) := roundUnits_le_two_pow prec a den
      _ ≤ 2 ^ (prec + k) := Nat.pow_le_pow_right two_pos (by omega)
      _ ≤ roundUnits prec b den := two_pow_le_roundUnits hk hprec
  · unfold roundUnits
    rw [heq]
    exact Nat.mul_le_mul_right _ (roundToEven_mono h)

theorem roundUnits_zero (prec den : Nat) : roundUnits prec 0 den = 0 := by
  simp [roundUnits, roundToEven]

theorem FpFormat.precision_pos (fmt : FpFormat) : 0 < fmt.precision := by
  cases fmt <;> decide

/-! ### The order of magnitudes -/

/-- The magnitude of `x` is at most that of `y`, neither of them a NaN; the infinities are the greatest. -/
def Fp.MagLE : Fp → Fp → Prop
  | .fin _ j, .fin _ k => j ≤ k
  | .fin _ _, .inf _ => True
  | .inf _, .inf _ => True
  | _, _ => False

theorem roundFp_mono (fmt : FpFormat) (m n : Bool) {a b : Nat} (den : Nat) (h : a ≤ b) :
    (roundFp fmt m a den).MagLE (roundFp fmt n b den) := by
  have hunits := roundUnits_mono (den := den) fmt.precision_pos h
  unfold roundFp
  dsimp only
  split_ifs with ha hb
  · exact hunits
  · trivial
  · omega
  · trivial

theorem toFmt_mono {x y : Fp} (fmt : FpFormat) (h : x.MagLE y) : (toFmt fmt x).MagLE (toFmt fmt y) := by
  match x, y, h with
  | .fin _ _, .fin _ _, h => exact Nat.mul_le_mul_right _ h
  | .fin _ _, .inf _, _ | .inf _, .inf _, _ => trivial

theorem roundFp_magLE_inf (fmt : FpFormat) (m n : Bool) (num den : Nat) :
    (roundFp fmt m num den).MagLE (.inf n) := by
  unfold roundFp
  dsimp only
  split_ifs <;> trivial

/-! ### The operations by a positive finite value -/

theorem fmul_fin (fmt : FpFormat) (m n : Bool) (j k : Nat) :
    fmul fmt (.fin m j) (.fin n k) = roundFp fmt (m != n) (j * k) (2 ^ fmt.unitExp) := rfl

theorem fmul_inf_fin (fmt : FpFormat) (m n : Bool) {k : Nat} (hk : 0 < k) :
    fmul fmt (.inf m) (.fin n k) = .inf (m != n) := by
  simp [fmul, hk.ne']

theorem fdiv_fin (fmt : FpFormat) (m n : Bool) (j : Nat) {k : Nat} (hk : 0 < k) :
    fdiv fmt (.fin m j) (.fin n k) = roundFp fmt (m != n) (j * 2 ^ fmt.unitExp) k := by
  simp [fdiv, hk.ne']

theorem fdiv_inf_fin (fmt : FpFormat) (m n : Bool) (k : Nat) :
    fdiv fmt (.inf m) (.fin n k) = .inf (m != n) := rfl

theorem fmul_mono {x y : Fp} (fmt : FpFormat) {k : Nat} (hk : 0 < k) (h : x.MagLE y) :
    (fmul fmt x (.fin false k)).MagLE (fmul fmt y (.fin false k)) := by
  match x, y, h with
  | .fin m a, .fin n b, h =>
    rw [fmul_fin, fmul_fin]
    exact roundFp_mono fmt _ _ _ (Nat.mul_le_mul_right k h)
  | .fin m a, .inf n, _ =>
    rw [fmul_fin, fmul_inf_fin fmt n false hk]
    exact roundFp_magLE_inf fmt _ _ _ _
  | .inf m, .inf n, _ =>
    rw [fmul_inf_fin fmt m false hk, fmul_inf_fin fmt n false hk]
    trivial

theorem fdiv_mono {x y : Fp} (fmt : FpFormat) {k : Nat} (hk : 0 < k) (h : x.MagLE y) :
    (fdiv fmt x (.fin false k)).MagLE (fdiv fmt y (.fin false k)) := by
  match x, y, h with
  | .fin m a, .fin n b, h =>
    rw [fdiv_fin fmt m false a hk, fdiv_fin fmt n false b hk]
    exact roundFp_mono fmt _ _ _ (Nat.mul_le_mul_right _ h)
  | .fin m a, .inf n, _ =>
    rw [fdiv_fin fmt m false a hk, fdiv_inf_fin]
    exact roundFp_magLE_inf fmt _ _ _ _
  | .inf m, .inf n, _ =>
    rw [fdiv_inf_fin, fdiv_inf_fin]
    trivial

theorem roundFp_zero (fmt : FpFormat) (neg : Bool) (den : Nat) : roundFp fmt neg 0 den = .fin neg 0 := by
  simp [roundFp, roundUnits_zero]

/-! ### The converter -/

theorem isPositiveFinite_iff {fmt : FpFormat} {x : Fp} :
    isPositiveFinite fmt x = true ↔
      ∃ k, x = .fin false k ∧ 0 < k ∧ k < 2 ^ fmt.limitExp ∧ roundUnits fmt.precision k 1 = k := by
  match x with
  | .nan | .inf _ | .fin true _ => simp [isPositiveFinite]
  | .fin false k => simp [isPositiveFinite, and_assoc]

/-- Valid parameters divide by and multiply with positive finite values (R6). -/
theorem Params.exists_of_valid {p : Params} (h : p.valid = true) :
    ∃ c b, p.correctionFactor = .fin false c ∧ 0 < c ∧ p.baseFreqHz = .fin false b ∧ 0 < b := by
  obtain ⟨-, hfactor, hbase, -⟩ := (Params.valid_iff p).1 h
  obtain ⟨c, hc, hcpos, -⟩ := isPositiveFinite_iff.1 hfactor
  obtain ⟨b, hb, hbpos, -⟩ := isPositiveFinite_iff.1 hbase
  exact ⟨c, b, hc, hcpos, hb, hbpos⟩

/-- Each of the three operations of the quotient is monotone, and so is the quotient (R109). -/
theorem conversion_mono {p : Params} (hp : p.valid = true) {x y : Fp} (h : x.MagLE y) :
    (conversion p x).MagLE (conversion p y) := by
  obtain ⟨c, b, hfactor, hc, hbase, hb⟩ := Params.exists_of_valid hp
  have hscale : 0 < 65536 * 2 ^ p.fmt.unitExp := by positivity
  unfold conversion fpOfNat
  rw [hfactor, hbase]
  exact fdiv_mono _ hb (fmul_mono _ hscale (fmul_mono _ hc (toFmt_mono _ h)))

/-- A zero times and over finite values is a zero (R108). -/
theorem conversion_zero {p : Params} (hp : p.valid = true) (neg : Bool) : conversion p (.fin neg 0) = .fin neg 0 := by
  obtain ⟨c, b, hfactor, -, hbase, hb⟩ := Params.exists_of_valid hp
  simp only [conversion, fpOfNat, toFmt, hfactor, hbase, fmul_fin, fdiv_fin _ _ _ _ hb, Nat.zero_mul, roundFp_zero,
    Bool.bne_false]

theorem truncIncrement_fin (fmt : FpFormat) (neg : Bool) (k : Nat) :
    truncIncrement fmt (.fin neg k) = if k < 2 ^ (32 + fmt.unitExp) then .ok (BitVec.ofNat 32 (k / 2 ^ fmt.unitExp))
      else .error .incrementRange := rfl

/-- What converts is finite and below 2^32, and its whole part is the increment (R105, R106). -/
theorem truncIncrement_ok_iff {fmt : FpFormat} {x : Fp} {v : Word} :
    truncIncrement fmt x = .ok v ↔
      ∃ neg k, x = .fin neg k ∧ k < 2 ^ (32 + fmt.unitExp) ∧ v.toNat = k / 2 ^ fmt.unitExp := by
  match x with
  | .nan | .inf _ => simp [truncIncrement]
  | .fin neg k =>
    rw [truncIncrement_fin]
    split_ifs with hk
    · have hq : k / 2 ^ fmt.unitExp < 2 ^ 32 := Nat.div_lt_of_lt_mul (by rwa [← pow_add, Nat.add_comm])
      rw [Except.ok.injEq, ← BitVec.toNat_inj, BitVec.toNat_ofNat, Nat.mod_eq_of_lt hq]
      constructor
      · exact fun hv => ⟨neg, k, rfl, hk, hv.symm⟩
      · rintro ⟨_, _, ⟨⟩, -, hv⟩
        exact hv.symm
    · simp [hk]

/-- Truncation is monotone, and so is its domain. -/
theorem truncIncrement_mono {fmt : FpFormat} {x y : Fp} {w : Word} (h : x.MagLE y)
    (hy : truncIncrement fmt y = .ok w) : ∃ v, truncIncrement fmt x = .ok v ∧ v.toNat ≤ w.toNat := by
  obtain ⟨n, b, rfl, hb, hw⟩ := truncIncrement_ok_iff.1 hy
  match x, h with
  | .fin m a, h =>
    have ha : a < 2 ^ (32 + fmt.unitExp) := Nat.lt_of_le_of_lt h hb
    have hv : truncIncrement fmt (.fin m a) = .ok (BitVec.ofNat 32 (a / 2 ^ fmt.unitExp)) := if_pos ha
    obtain ⟨m', a', hx, -, hval⟩ := truncIncrement_ok_iff.1 hv
    cases hx
    exact ⟨_, hv, by rw [hval, hw]; exact Nat.div_le_div_right h⟩

/-- A magnitude below 1 truncates to 0. -/
theorem truncIncrement_of_lt_one {fmt : FpFormat} (neg : Bool) {k : Nat} (h : k < 2 ^ fmt.unitExp) :
    truncIncrement fmt (.fin neg k) = .ok 0 :=
  truncIncrement_ok_iff.2
    ⟨neg, k, rfl, h.trans_le (Nat.pow_le_pow_right two_pos (by omega)), (Nat.div_eq_of_lt h).symm⟩

/-- A frequency in the domain converts as its quotient truncates (R105). -/
theorem toIncrement_of_domain (p : Params) {bits : Word} (hnan : (f32 bits).isNaN = false)
    (hinf : (f32 bits).isInf = false) (hneg : (f32 bits).isNeg = false) :
    toIncrement p bits = truncIncrement p.fmt (conversion p (f32 bits)) := by
  rcases toIncrement_cases p bits with ⟨hout, -⟩ | ⟨-, h⟩
  · simp [hnan, hinf, hneg] at hout
  · exact h

theorem toIncrement_of_fin (p : Params) {bits : Word} {neg : Bool} {k : Nat} (hbits : f32 bits = .fin neg k)
    (hneg : (f32 bits).isNeg = false) : toIncrement p bits = truncIncrement p.fmt (conversion p (.fin neg k)) := by
  rw [toIncrement_of_domain p (by rw [hbits]; rfl) (by rw [hbits]; rfl) hneg, hbits]

/-- Both zeros convert to increment 0 (R108). -/
theorem toIncrement_of_zero {p : Params} (hp : p.valid = true) {bits : Word} (neg : Bool)
    (hbits : f32 bits = .fin neg 0) : toIncrement p bits = .ok 0 := by
  have hneg : (f32 bits).isNeg = false := by rw [hbits]; exact Bool.and_false neg
  rw [toIncrement_of_fin p hbits hneg, conversion_zero hp, truncIncrement_of_lt_one neg (by positivity)]

/-- A pattern that converts is in the domain, and its quotient truncates to its increment (R105, R106). -/
theorem toIncrement_ok {p : Params} {bits v : Word} (h : toIncrement p bits = .ok v) :
    truncIncrement p.fmt (conversion p (f32 bits)) = .ok v := by
  rcases toIncrement_cases p bits with ⟨-, hout⟩ | ⟨-, hin⟩
  · rw [hout] at h; cases h
  · rwa [← hin]

/-- R107, with the increment named. -/
theorem Params.meets67_iff (p : Params) :
    p.meets67 = true ↔ ∃ v, toIncrement p hz67 = .ok v ∧ v.toNat % 2 ^ 24 < 2 ^ 16 := by
  unfold Params.meets67
  cases toIncrement p hz67 with
  | ok v => simp
  | error r => simp

theorem Params.meets67_of_valid {p : Params} (h : p.valid = true) : p.meets67 = true := by
  obtain ⟨-, -, -, hmeets⟩ := (Params.valid_iff p).1 h
  exact hmeets

end Sys2Proof
end

section
/-! SUPPORT. The table index of a sum, and the accumulator over many steps (40_datapath.md R110, R112). -/

namespace Sys2Proof

theorem ddsStep_fst (a i : Word) : (ddsStep a i).1 = a + i := rfl

/-- The index of a sum: the sum of the indices and the carry out of the fraction (R110). -/
theorem tableIndex_add (a i : Word) :
    tableIndex (a + i) = tableIndex a + tableIndex i +
      if 2 ^ 16 ≤ a.toNat % 2 ^ 16 + i.toNat % 2 ^ 16 then 1#8 else 0#8 := by
  apply BitVec.eq_of_toNat_eq
  rw [BitVec.toNat_add, BitVec.toNat_add, tableIndex_toNat, tableIndex_toNat, tableIndex_toNat, BitVec.toNat_add]
  split_ifs with hcarry
  · rw [BitVec.toNat_ofNat]; omega
  · rw [BitVec.toNat_ofNat]; omega

/-- Entry 0 is selected exactly below 2^16, modulo 2^24 (R107). -/
theorem tableIndex_eq_zero_iff (v : Word) : tableIndex v = 0 ↔ v.toNat % 2 ^ 24 < 2 ^ 16 := by
  rw [← BitVec.toNat_inj, tableIndex_toNat, show (0 : Byte).toNat = 0 from rfl]
  omega

/-- The accumulator after `n` steps of one increment (R112). -/
theorem ddsStep_iterate_toNat (a i : Word) (n : Nat) :
    ((fun x : Word => (ddsStep x i).1)^[n] a).toNat = (a.toNat + n * i.toNat) % 2 ^ 32 := by
  induction n with
  | zero => simp [Nat.mod_eq_of_lt a.isLt]
  | succ n ih =>
    rw [Function.iterate_succ_apply', ddsStep_fst, BitVec.toNat_add, ih, Nat.succ_mul]
    omega

end Sys2Proof
end

section
/-! PROOFS. The statements of 40_datapath.md on the converter, the DDS step and the channels' datapaths. -/

namespace Sys2Proof.Machine

/-! ### A delivered instruction -/

/-- An instruction delivered by its agent and admitted is the first step of a run (R57, R78). -/
theorem run_succ_of_performed {s t : State} {i : Instr} {rest : List Event} (n : Nat)
    (hp : s.port = eventOf i :: rest) (h : Performed { s with port := rest } i t) : run (n + 1) s = run n t :=
  run_succ n ((step_of_decode_ok hp (decode_encode i)).trans (exec_of_performed h))

/-! ### One channel's datapath -/

theorem State.advance_acc_get (s : State) (c : Channel) :
    s.advance.acc.get c = s.acc.get c + s.inc.get c := by
  cases c <;> rfl

theorem State.advance_duty_get (s : State) (c : Channel) :
    s.advance.duty.get c = sample (tableIndex (s.acc.get c + s.inc.get c)) := by
  cases c <;> rfl

theorem State.DutyMatches.get {s : State} (h : s.DutyMatches) (c : Channel) :
    s.duty.get c = sample (tableIndex (s.acc.get c)) := by
  unfold State.DutyMatches at h
  rw [h]
  cases c <;> rfl

/-- What a TICK does to the datapath: nothing where it is refused, else both channels advance (R131, R132). -/
theorem tick_datapath {s t : State} (h : exec .tick s = .next t) :
    (t.acc = s.acc ∧ t.duty = s.duty) ∨ (t.acc = s.advance.acc ∧ t.duty = s.advance.duty) := by
  rcases exec_cases h with ⟨r, rfl⟩ | hperf
  · exact .inl ⟨rfl, rfl⟩
  · cases hperf
    exact .inr ⟨by rw [State.autoShutdown_acc, State.countDown_acc],
      by rw [State.autoShutdown_duty, State.countDown_duty]⟩

/-- A channel whose increment is 0 keeps its accumulator over a TICK, and the sample it last held (R108). -/
theorem tick_freezes {s t : State} (c : Channel) (h : exec .tick s = .next t) (hinc : s.inc.get c = 0) :
    t.acc.get c = s.acc.get c ∧ (s.DutyMatches → t.duty.get c = s.duty.get c) := by
  rcases tick_datapath h with ⟨hacc, hduty⟩ | ⟨hacc, hduty⟩
  · rw [hacc, hduty]; exact ⟨rfl, fun _ => rfl⟩
  · rw [hacc, hduty, State.advance_acc_get, State.advance_duty_get, hinc, add_zero]
    exact ⟨rfl, fun hmatch => (hmatch.get c).symm⟩

/-- A tick leaves both duty registers at the samples of the accumulators it leaves (R130, R132). -/
theorem dutyMatches_of_tick (s : State) : s.advance.countDown.autoShutdown.DutyMatches := by
  simp [State.DutyMatches]

/-- An instruction's effect keeps the duty registers at the samples, unless it begins a session: a tick writes both
registers from the new accumulators, and nothing but INIT writes them besides. -/
theorem Performed.dutyMatches {s t : State} {i : Instr} (h : Performed s i t) (hs : s.DutyMatches)
    (hsession : t.active = true → s.active = true) : t.DutyMatches := by
  cases h with
  | init h => exact absurd (h.symm.trans (hsession rfl)) (by decide)
  | shutdown | settone | toneon | toneoff | setbeep | beepon | beepoff | timedbeep => exact hs
  | tick => exact dutyMatches_of_tick s

/-! ### A channel's datapath beside the other's (R111) -/

/-- Two states with the same datapath of channel `c`. -/
structure State.DatapathAlike (c : Channel) (s₁ s₂ : State) : Prop where
  acc : s₁.acc.get c = s₂.acc.get c
  inc : s₁.inc.get c = s₂.inc.get c
  duty : s₁.duty.get c = s₂.duty.get c

/-- Two states alike in all that a step reads for the datapath of channel `c`: the datapath itself, what admits the
step, and the draws of INIT. -/
structure State.ChannelAlike (c : Channel) (s₁ s₂ : State) : Prop extends State.DatapathAlike c s₁ s₂ where
  active : s₁.active = s₂.active
  carrier : s₁.carrier = s₂.carrier
  draws : s₁.draws = s₂.draws

/-- One value written to one field of two pairs keeps them equal at every channel. -/
theorem Pair.get_set_congr {α : Type} {p q : Pair α} {c : Channel} (d : Channel) (v : α) (h : p.get c = q.get c) :
    (p.set d v).get c = (q.set d v).get c := by
  by_cases hcd : c = d
  · subst hcd; rw [Pair.get_set_same, Pair.get_set_same]
  · rw [Pair.get_set_other _ _ _ _ hcd, Pair.get_set_other _ _ _ _ hcd, h]

namespace State.DatapathAlike

variable {c : Channel} {s₁ s₂ : State}

theorem symm (h : s₁.DatapathAlike c s₂) : s₂.DatapathAlike c s₁ := ⟨h.acc.symm, h.inc.symm, h.duty.symm⟩

theorem setInc (h : s₁.DatapathAlike c s₂) (d : Channel) (v : Word) :
    (s₁.setInc d v).DatapathAlike c (s₂.setInc d v) :=
  ⟨h.acc, Pair.get_set_congr d v h.inc, h.duty⟩

/-- Each channel advances by its own increment; the rest of a tick writes no datapath. -/
theorem tick (h : s₁.DatapathAlike c s₂) :
    s₁.advance.countDown.autoShutdown.DatapathAlike c s₂.advance.countDown.autoShutdown where
  acc := by
    simp only [autoShutdown_acc, countDown_acc, advance_acc_get, h.acc, h.inc]
  inc := by
    simp only [autoShutdown_inc, countDown_inc, advance_inc, h.inc]
  duty := by
    simp only [autoShutdown_duty, countDown_duty, advance_duty_get, h.acc, h.inc]

end State.DatapathAlike

namespace State.ChannelAlike

variable {c : Channel} {s₁ s₂ t₁ t₂ : State}

theorem symm (h : s₁.ChannelAlike c s₂) : s₂.ChannelAlike c s₁ :=
  ⟨h.toDatapathAlike.symm, h.active.symm, h.carrier.symm, h.draws.symm⟩

theorem tickEnabled (h : s₁.ChannelAlike c s₂) : s₁.tickEnabled = s₂.tickEnabled := by
  simp only [State.tickEnabled, h.active, h.carrier]

theorem withPort (h : s₁.ChannelAlike c s₂) (rest : List Event) :
    ({ s₁ with port := rest } : State).ChannelAlike c { s₂ with port := rest } :=
  ⟨⟨h.acc, h.inc, h.duty⟩, h.active, h.carrier, h.draws⟩

/-- INIT clears the channel and draws its duty value. -/
theorem init (h : s₁.ChannelAlike c s₂) :
    State.DatapathAlike c (((((s₁.setPins .driving).setCarrier .idle).clearChannels).drawDuties).setActive true)
      (((((s₂.setPins .driving).setCarrier .idle).clearChannels).drawDuties).setActive true) where
  acc := rfl
  inc := rfl
  duty := by simp [h.draws]

/-- An instruction admitted in one of two states alike is admitted in the other, to the same datapath. -/
theorem performed {i : Instr} (h : s₁.ChannelAlike c s₂) (h₁ : Performed s₁ i t₁) :
    ∃ t₂, Performed s₂ i t₂ ∧ t₁.DatapathAlike c t₂ := by
  have hactive {b : Bool} (hb : s₁.active = b) : s₂.active = b := h.active.symm.trans hb
  have hdata := h.toDatapathAlike
  cases h₁ with
  | init ha => exact ⟨_, .init (hactive ha), h.init⟩
  | shutdown => exact ⟨_, .shutdown, ⟨h.acc, h.inc, h.duty⟩⟩
  | settone bits v ha hv => exact ⟨_, .settone bits v (hactive ha) hv, hdata.setInc .tone v⟩
  | setbeep bits v ha hv => exact ⟨_, .setbeep bits v (hactive ha) hv, hdata.setInc .beep v⟩
  | toneon ha => exact ⟨_, .toneon (hactive ha), ⟨h.acc, h.inc, h.duty⟩⟩
  | toneoff ha => exact ⟨_, .toneoff (hactive ha), ⟨h.acc, h.inc, h.duty⟩⟩
  | beepon ha => exact ⟨_, .beepon (hactive ha), ⟨h.acc, h.inc, h.duty⟩⟩
  | beepoff ha => exact ⟨_, .beepoff (hactive ha), ⟨h.acc, h.inc, h.duty⟩⟩
  | timedbeep d n ha hn => exact ⟨_, .timedbeep d n (hactive ha) hn, ⟨h.acc, h.inc, h.duty⟩⟩
  | tick ht => exact ⟨_, .tick (h.tickEnabled ▸ ht), hdata.tick⟩

/-- An instruction that has its effect in one of two states alike answers with the same datapath in the other. -/
theorem exec_of_performed {i : Instr} (h : s₁.ChannelAlike c s₂) (h₁ : Performed s₁ i t₁)
    (h₂ : Machine.exec i s₂ = .next t₂) : t₁.DatapathAlike c t₂ := by
  obtain ⟨u, hu, hdata⟩ := h.performed h₁
  obtain rfl : u = t₂ := Host.Outcome.next.inj ((Machine.exec_of_performed hu).symm.trans h₂)
  exact hdata

/-- An instruction is refused in both of two states alike, which leaves the datapaths, or has its effect in both. -/
theorem exec {i : Instr} (h : s₁.ChannelAlike c s₂) (h₁ : Machine.exec i s₁ = .next t₁)
    (h₂ : Machine.exec i s₂ = .next t₂) : t₁.DatapathAlike c t₂ := by
  rcases exec_cases h₁ with ⟨r₁, rfl⟩ | hperf₁
  · rcases exec_cases h₂ with ⟨r₂, rfl⟩ | hperf₂
    · exact ⟨h.acc, h.inc, h.duty⟩
    · exact (h.symm.exec_of_performed hperf₂ h₁).symm
  · exact h.exec_of_performed hperf₁ h₂

theorem step (h : s₁.ChannelAlike c s₂) (hport : s₁.port = s₂.port) (h₁ : Machine.step s₁ = .next t₁)
    (h₂ : Machine.step s₂ = .next t₂) : t₁.DatapathAlike c t₂ := by
  rcases pending_cases s₁ with ⟨e, rest, i, hp, hd, -⟩ | ⟨e, rest, r, hp, hd, -⟩ | ⟨hp, ht, -⟩ | ⟨hp, ht, -⟩
  · rw [step_of_decode_ok hp hd] at h₁
    rw [step_of_decode_ok (hport ▸ hp) hd] at h₂
    exact (h.withPort rest).exec h₁ h₂
  · rw [step_of_decode_error hp hd] at h₁
    rw [step_of_decode_error (hport ▸ hp) hd] at h₂
    cases h₁; cases h₂
    exact ⟨h.acc, h.inc, h.duty⟩
  · rw [step_of_tickEnabled hp ht] at h₁
    rw [step_of_tickEnabled (hport ▸ hp) (h.tickEnabled ▸ ht)] at h₂
    exact h.exec h₁ h₂
  · rw [step_of_not_tickEnabled hp ht] at h₁
    rw [step_of_not_tickEnabled (hport ▸ hp) (h.tickEnabled ▸ ht)] at h₂
    cases h₁; cases h₂
    exact h.toDatapathAlike

end State.ChannelAlike

/-! ### The statements -/

/-- Settles O26: the quotient is monotone under valid parameters, and so is truncation. -/
theorem converterIsMonotone : Obligations.ConverterIsMonotone := by
  intro p b₁ b₂ v₂ n₁ n₂ k₁ k₂ hvalid hb₁ hneg hb₂ hle hv₂
  have hmag : (f32 b₁).MagLE (f32 b₂) := by rw [hb₁, hb₂]; exact hle
  rw [toIncrement_of_fin p hb₁ hneg, ← hb₁]
  exact truncIncrement_mono (conversion_mono hvalid hmag) (toIncrement_ok hv₂)

/-- Settles O28: R107 is one of the constraints the machine's parameters meet, and four steps compute the scenario. -/
theorem sixtySevenHertzWritesEntryZero : Obligations.SixtySevenHertzWritesEntryZero := by
  obtain ⟨v, hv, hlow⟩ := (Params.meets67_iff _).1 (Params.meets67_of_valid Config.params_valid)
  have hindex : tableIndex v = 0 := (tableIndex_eq_zero_iff v).2 hlow
  refine ⟨⟨v, hv, hindex, hlow⟩, tableIndex_eq_zero_iff, Params.meets67_of_valid (Params.ex1_valid _),
    Params.meets67_of_valid (Params.ex1_valid _), fun s rest hinactive hport => ?_⟩
  have hrun := (run_succ_of_performed 3 hport (.init hinactive)).trans <|
    (run_succ_of_performed 2 rfl (.settone _ v rfl hv)).trans <|
    (run_succ_of_performed 1 rfl (.toneon rfl)).trans (run_succ_of_performed 0 rfl (.tick rfl))
  refine ⟨_, hrun, ?duty, ?carrier, ?refused⟩
  case duty => simp [hindex, sample]
  case carrier => simp [State.autoShutdown_carrier]
  case refused => simp

/-- Settles O39: the sum and its sample by definition, and the index of a sum. -/
theorem ddsStepLaw : Obligations.DdsStepLaw := by
  refine ⟨fun a i => ⟨?_, rfl⟩, fun a => add_zero a, tableIndex_add, rfl⟩
  apply BitVec.eq_of_toNat_eq
  rw [ddsStep_fst, BitVec.toNat_add, BitVec.toNat_ofNat, Nat.mod_mod]

/-- Settles O41: the steps add up to 2^32, which is 0 modulo 2^32. -/
theorem wraparoundClosure : Obligations.WraparoundClosure := by
  intro a i _ hdvd
  apply BitVec.eq_of_toNat_eq
  rw [ddsStep_iterate_toNat, Nat.div_mul_cancel hdvd, Nat.add_mod_right, Nat.mod_eq_of_lt a.isLt]

/-- Settles O44: a tick writes both duty registers, and no other step of a session writes them or an accumulator. -/
theorem dutyFollowsPhase : Obligations.DutyFollowsPhase := by
  constructor
  · intro s t hactive hrunning h
    rw [exec_of_performed (.tick ((tickEnabled_iff s).2 ⟨hactive, hrunning⟩))] at h
    cases h
    exact dutyMatches_of_tick s
  · intro s t hs h hsession
    rcases step_next_cases h with ⟨-, rfl⟩ | ⟨_, _, _, -, rfl⟩ | ⟨_, _, -, rfl | ⟨_, _, -, rfl⟩, hperf⟩
    · exact hs
    · exact hs
    · exact hperf.dutyMatches hs hsession
    · exact hperf.dutyMatches hs hsession

/-- Settles O45: each channel by itself, whatever the other one's datapath. -/
theorem channelsAreIndependent : Obligations.ChannelsAreIndependent := by
  intro s₁ s₂ t₁ t₂ hport hactive hcarrier hdraws h₁ h₂
  have hchannel (c : Channel) (hdata : s₁.DatapathAlike c s₂) : t₁.DatapathAlike c t₂ :=
    State.ChannelAlike.step ⟨hdata, hactive, hcarrier, hdraws⟩ hport h₁ h₂
  constructor
  · intro hacc hinc hduty
    obtain ⟨hacc', hinc', hduty'⟩ := hchannel .tone ⟨hacc, hinc, hduty⟩
    exact ⟨hacc', hinc', hduty'⟩
  · intro hacc hinc hduty
    obtain ⟨hacc', hinc', hduty'⟩ := hchannel .beep ⟨hacc, hinc, hduty⟩
    exact ⟨hacc', hinc', hduty'⟩

/-- Settles O25: a zero has a zero quotient, a quotient below 1 truncates to 0, and adding 0 moves no accumulator. -/
theorem zeroFrequencyFreezesTheChannel : Obligations.ZeroFrequencyFreezesTheChannel := by
  refine ⟨fun p hvalid => ?zeros, fun p bits neg k hnan hinf hneg hquot hlt => ?small, fun fmt => ?underEx1,
    fun s t h hinc => tick_freezes .tone h hinc, fun s t h hinc => tick_freezes .beep h hinc⟩
  case zeros => exact ⟨toIncrement_of_zero hvalid false rfl, toIncrement_of_zero hvalid true rfl⟩
  case small => rw [toIncrement_of_domain p hnan hinf hneg, hquot, truncIncrement_of_lt_one neg hlt]
  case underEx1 => cases fmt <;> decide +kernel

end Sys2Proof.Machine
end

section
/-! SUPPORT. TICK answered in both of its cases, the countdown TIMEDBEEP loads, and runs over the deliveries of a list of
instructions (41_tick.md R130 to R134, 42_control.md R180 to R182, 20_memory.md R57). -/

namespace Sys2Proof

/-- A quotient that is neither zero nor past 32 bits is loaded (R180, R182). -/
theorem countdownValue_of_bounds {p : Params} {d : Word} (hpos : 0 < countdownTicks p d)
    (hlt : countdownTicks p d < 2 ^ 32) : countdownValue p d = .ok (BitVec.ofNat 32 (countdownTicks p d)) := by
  have hd : d ≠ 0 := by
    rintro rfl
    simp [countdownTicks] at hpos
  rw [countdownValue, if_neg hd, if_neg hpos.ne', if_neg hlt.not_ge]

end Sys2Proof

namespace Sys2Proof.Machine

/-! ### TICK -/

/-- TICK in full: its effect where the TIMER has its step, else its refusal (R130, R131). -/
theorem exec_tick (s : State) :
    exec .tick s =
      .next (if s.tickEnabled then s.advance.countDown.autoShutdown else s.refuse .tickWhileIdle) := by
  cases h : s.tickEnabled with
  | true => exact exec_of_performed (.tick h)
  | false => exact congrArg (attempt s) (whenTicking_of_disabled h)

/-- The TIMER has no step in an inactive module or with the carrier Idle (R131). -/
theorem tickEnabled_eq_false {s : State} (h : s.active = false ∨ s.carrier = .idle) : s.tickEnabled = false := by
  rcases h with h | h <;> simp [State.tickEnabled, h]

/-- The countdown of a tick as one write: `cnt`, and BEEP's enable (R133). -/
theorem State.countDown_eq (s : State) :
    s.countDown =
      { s with
        cnt := if s.cnt = 0 then 0 else s.cnt - 1
        en := ⟨s.en.tone, if s.cnt = 1 then false else s.en.beep⟩ } := by
  rcases countDown_cases s with ⟨hzero, he⟩ | ⟨hone, he⟩ | ⟨hzero, hone, he⟩
  · rw [he, if_pos hzero, ← hzero, if_neg (by rw [hzero]; decide)]
  · rw [he, if_pos hone, hone]; rfl
  · rw [he, if_neg hzero, if_neg hone]; rfl

/-- Auto-shutdown as one write, of the carrier (R134). -/
theorem State.autoShutdown_eq (s : State) :
    s.autoShutdown =
      { s with carrier := if s.en.tone = true ∨ s.en.beep = true then s.carrier else .idle } := by
  rcases autoShutdown_cases s with ⟨hon, he⟩ | ⟨htone, hbeep, he⟩
  · rw [he, if_pos hon]
  · rw [he, if_neg (by simp [htone, hbeep])]; rfl

/-! ### Runs over a trace -/

theorem trace_append (is js : List Instr) : trace (is ++ js) = trace is ++ trace js := List.map_append

/-- No instruction touches the deliveries that follow it. -/
theorem exec_port {s t : State} {i : Instr} (h : exec i s = .next t) : t.port = s.port := by
  rcases exec_cases h with ⟨r, rfl⟩ | hperf
  · rfl
  · cases hperf with
    | tick => simp
    | _ => rfl

/-- The deliveries of a list of instructions are performed one by one. What holds before them of the instructions so far
and the state, and is kept by each of them, holds after them of all the instructions. -/
theorem run_trace {P : List Instr → State → Prop} {Allowed : Instr → Prop}
    (hport : ∀ {done : List Instr} {s : State} (rest : List Event), P done s → P done { s with port := rest })
    (hexec : ∀ {done : List Instr} {s t : State} {i : Instr}, Allowed i → P done s → exec i s = .next t →
      P (done ++ [i]) t)
    (is : List Instr) {done : List Instr} {s : State} {rest : List Event} (his : ∀ i ∈ is, Allowed i)
    (hs : P done s) (hpending : s.port = trace is ++ rest) :
    ∃ t, run is.length s = .next t ∧ t.port = rest ∧ P (done ++ is) t := by
  induction is generalizing done s with
  | nil => exact ⟨s, rfl, hpending, by rwa [List.append_nil]⟩
  | cons i is ih =>
    obtain ⟨hi, his⟩ := List.forall_mem_cons.1 his
    obtain ⟨u, hu⟩ := exec_answers i { s with port := trace is ++ rest }
    obtain ⟨t, hrun, hleft, ht⟩ := ih his (hexec hi (hport _ hs) hu) (exec_port hu)
    have hstep : step s = .next u := (step_of_decode_ok hpending (decode_encode i)).trans hu
    exact ⟨t, (run_succ _ hstep).trans hrun, hleft, by rwa [List.append_cons]⟩

/-- A run that leaves a TICK to come, in an active module with a running carrier, goes on with it. -/
theorem run_then_tick {s t : State} {n : Nat} {rest : List Event} (hrun : run n s = .next t)
    (hport : t.port = eventOf .tick :: rest) (hactive : t.active = true) (hrunning : t.carrier = .running) :
    run (n + 1) s = .next ({ t with port := rest } : State).advance.countDown.autoShutdown := by
  have henabled : t.tickEnabled = true := (tickEnabled_iff t).2 ⟨hactive, hrunning⟩
  rw [run_add n 1 hrun, run_succ_of_performed 0 hport (.tick henabled), run_zero]

end Sys2Proof.Machine
end

section
/-! PROOFS. The statements of 41_tick.md: what a TICK does, when it is admitted, when a timed beep ends, and when the
carrier stops. -/

namespace Sys2Proof.Machine

/-! ### One TICK -/

/-- Settles O38: TICK in its two cases. -/
theorem tickNeedsARunningCarrier : Obligations.TickNeedsARunningCarrier := by
  refine ⟨tickEnabled_iff, fun s hactive hrunning => ?admitted, fun s hout => ?refused⟩
  case admitted =>
    have henabled := (tickEnabled_iff s).2 ⟨hactive, hrunning⟩
    exact ⟨_, exec_of_performed (.tick henabled), by simp, by simp⟩
  case refused =>
    rw [exec_tick, tickEnabled_eq_false hout]
    rfl

/-- Settles O37: the writes of the three phases of an admitted TICK, one after the other. -/
theorem tickAdvancesCountsAndShutsDown : Obligations.TickAdvancesCountsAndShutsDown := by
  refine ⟨by decide, rfl, fun s hactive hrunning => ?_⟩
  rw [exec_of_performed (.tick ((tickEnabled_iff s).2 ⟨hactive, hrunning⟩)), State.autoShutdown_eq,
    State.countDown_eq, State.advance_carrier, hrunning]
  rfl

/-! ### A timed beep (R135) -/

/-- The instructions of R135 that may come between the ticks of a timed beep, and the tick itself. -/
def KeepsTimedBeep (i : Instr) : Prop :=
  i = .tick ∨ i = .toneon ∨ i = .toneoff ∨ (∃ b, i = .settone b) ∨ ∃ b, i = .setbeep b

/-- A timed beep with `n` ticks to go; with none to go, one that has ended. -/
structure State.BeepLeft (n : Nat) (s : State) : Prop where
  active : 0 < n → s.active = true
  carrier : 0 < n → s.carrier = .running
  beep : s.en.beep = decide (0 < n)
  cnt : s.cnt.toNat = n

namespace State.BeepLeft

variable {s t : State} {n : Nat}

theorem withPort (h : s.BeepLeft n) (rest : List Event) : ({ s with port := rest } : State).BeepLeft n :=
  ⟨h.active, h.carrier, h.beep, h.cnt⟩

theorem cnt_eq_zero_iff (h : s.BeepLeft n) : s.cnt = 0 ↔ n = 0 := by
  rw [← h.cnt, ← BitVec.toNat_inj]; rfl

theorem cnt_eq_one_iff (h : s.BeepLeft n) : s.cnt = 1 ↔ n = 1 := by
  rw [← h.cnt, ← BitVec.toNat_inj]; rfl

/-- The effect of a tick takes one from the ticks to go (R133), and the carrier runs on while any is left (R134). -/
theorem afterTick (h : s.BeepLeft n) : s.advance.countDown.autoShutdown.BeepLeft (n - 1) := by
  have hbeep : s.advance.countDown.en.beep = decide (0 < n - 1) := by
    rw [countDown_en_beep, advance_en, advance_cnt, h.beep, Bool.eq_iff_iff]
    simp only [Bool.and_eq_true, decide_eq_true_eq, bne_iff_ne, ne_eq, h.cnt_eq_one_iff]
    omega
  constructor
  case active => intro hn; simpa using h.active (by omega)
  case carrier =>
    intro hn
    rw [autoShutdown_carrier, hbeep, decide_eq_true hn, Bool.or_true, if_pos rfl, countDown_carrier]
    exact h.carrier (by omega)
  case beep => rw [autoShutdown_en, hbeep]
  case cnt =>
    rw [autoShutdown_cnt, countDown_cnt, advance_cnt]
    have hcnt := h.cnt
    split_ifs <;> bv_omega

/-- The tick that ends a timed beep stops the carrier exactly where TONE is off (R134, R135). -/
theorem carrier_afterTick (h : s.BeepLeft 1) :
    s.advance.countDown.autoShutdown.carrier =
      if s.advance.countDown.autoShutdown.en.tone then .running else .idle := by
  have hoff : s.advance.countDown.en.beep = false := by
    have hbeep := h.afterTick.beep
    rwa [autoShutdown_en] at hbeep
  rw [autoShutdown_carrier, autoShutdown_en, hoff, Bool.or_false, countDown_carrier, advance_carrier,
    h.carrier Nat.one_pos]

/-- A TICK takes one from the ticks to go, and there is no refused one before the last of them. -/
theorem tick (h : s.BeepLeft n) (ht : exec .tick s = .next t) : t.BeepLeft (n - 1) := by
  rw [exec_tick] at ht
  cases ht
  cases henabled : s.tickEnabled with
  | true => exact h.afterTick
  | false =>
    have hn : n = 0 := Nat.eq_zero_of_not_pos fun hpos => by
      rw [(tickEnabled_iff s).2 ⟨h.active hpos, h.carrier hpos⟩] at henabled
      cases henabled
    subst hn
    exact ⟨h.active, h.carrier, h.beep, h.cnt⟩

/-- Only a tick takes from the ticks to go: the other instructions leave them, admitted or refused. -/
theorem exec {i : Instr} (hi : KeepsTimedBeep i) (h : s.BeepLeft n) (hexec : Machine.exec i s = .next t) :
    t.BeepLeft (n - [i].count .tick) := by
  rcases hi with rfl | hi
  · exact h.tick hexec
  have hcount : [i].count .tick = 0 := by
    rcases hi with rfl | rfl | ⟨b, rfl⟩ | ⟨b, rfl⟩ <;> rfl
  rw [hcount, Nat.sub_zero]
  rcases exec_cases hexec with ⟨r, rfl⟩ | hperf
  · exact ⟨h.active, h.carrier, h.beep, h.cnt⟩
  · cases hperf with
    | toneon => exact ⟨h.active, fun _ => rfl, h.beep, h.cnt⟩
    | toneoff | settone | setbeep => exact ⟨h.active, h.carrier, h.beep, h.cnt⟩
    | init | shutdown | beepon | beepoff | timedbeep | tick => simp at hi

/-- Over a trace the ticks in it are taken from the ticks to go. -/
theorem run_trace (h : s.BeepLeft n) {is : List Instr} {rest : List Event} (his : ∀ i ∈ is, KeepsTimedBeep i)
    (hpending : s.port = trace is ++ rest) :
    ∃ t, run is.length s = .next t ∧ t.port = rest ∧ t.BeepLeft (n - is.count .tick) := by
  refine Machine.run_trace (P := fun done u => u.BeepLeft (n - done.count .tick)) (done := [])
    (fun rest hu => hu.withPort rest) (fun hi hu hexec => ?_) is his h hpending
  rw [List.count_append, ← Nat.sub_sub]
  exact hu.exec hi hexec

/-- R135 for a trace whose last instruction is the tick that ends the beep: the instructions before it leave one tick
to go. -/
theorem carrier_of_run_trace_tick (h : s.BeepLeft n) {is : List Instr} {rest : List Event}
    (his : ∀ i ∈ is ++ [Instr.tick], KeepsTimedBeep i) (hpending : s.port = trace (is ++ [.tick]) ++ rest)
    (hcount : is.count .tick + 1 = n) (hrun : run (is.length + 1) s = .next t) :
    t.carrier = if t.en.tone then .running else .idle := by
  rw [trace_append, List.append_assoc] at hpending
  obtain ⟨u, hu, hport, hleft⟩ := h.run_trace (fun i hi => his i (List.mem_append_left _ hi)) hpending
  rw [show n - is.count .tick = 1 by omega] at hleft
  rw [run_then_tick hu hport (hleft.active one_pos) (hleft.carrier one_pos)] at hrun
  cases hrun
  exact (hleft.withPort rest).carrier_afterTick

/-- R135, whole: what a trace leaves of a timed beep, by the number of ticks in it. -/
theorem endsAtItsTick (h : s.BeepLeft n) {is : List Instr} {rest : List Event}
    (his : ∀ i ∈ is, KeepsTimedBeep i) (hpending : s.port = trace is ++ rest) :
    ∃ t, run is.length s = .next t ∧
      (is.count .tick < n → t.en.beep = true ∧ t.cnt.toNat = n - is.count .tick ∧ t.carrier = .running) ∧
      (n ≤ is.count .tick → t.en.beep = false ∧ t.cnt = 0) ∧
      (is.count .tick = n → is.getLast? = some .tick → t.carrier = if t.en.tone then .running else .idle) := by
  obtain ⟨t, hrun, -, hleft⟩ := h.run_trace his hpending
  refine ⟨t, hrun, fun hlt => ?before, fun hge => ?ended, fun hcount hlast => ?last⟩
  case before =>
    have hpos : 0 < n - is.count .tick := by omega
    exact ⟨hleft.beep.trans (decide_eq_true hpos), hleft.cnt, hleft.carrier hpos⟩
  case ended =>
    have hzero : n - is.count .tick = 0 := by omega
    exact ⟨hleft.beep.trans (decide_eq_false hzero.not_gt), hleft.cnt_eq_zero_iff.2 hzero⟩
  case last =>
    obtain ⟨js, rfl⟩ := List.getLast?_eq_some_iff.1 hlast
    rw [List.count_append] at hcount
    rw [List.length_append] at hrun
    exact h.carrier_of_run_trace_tick his hpending hcount hrun

end State.BeepLeft

/-- The effect of TIMEDBEEP begins a timed beep of the ticks it loads (R180). -/
theorem beepLeft_of_load {s : State} {v : Word} {n : Nat} (hactive : s.active = true) (hpos : 0 < n)
    (hv : v.toNat = n) : ((s.channelOn .beep).setCnt v).BeepLeft n :=
  ⟨fun _ => hactive, fun _ => rfl, (decide_eq_true hpos).symm, hv⟩

/-- Settles O42: a countdown that is held, or that TIMEDBEEP loads, is a timed beep with its ticks to go. -/
theorem timedBeepEndsAtItsTick : Obligations.TimedBeepEndsAtItsTick := by
  constructor
  · intro s is rest n hactive hrunning hbeep hn hpos his hpending
    have hleft : s.BeepLeft n :=
      ⟨fun _ => hactive, fun _ => hrunning, hbeep.trans (decide_eq_true hpos).symm, hn.symm⟩
    exact hleft.endsAtItsTick his hpending
  · intro s d is rest n hactive hn hpos hlt his hpending
    subst hn
    have hload := countdownValue_of_bounds hpos hlt
    obtain ⟨-, -, hticks⟩ := countdownValue_ok hload
    rw [run_succ_of_performed is.length hpending (.timedbeep d _ hactive hload)]
    have hleft := beepLeft_of_load (s := { s with port := trace is ++ rest }) hactive hpos hticks
    exact hleft.endsAtItsTick his rfl

/-! ### A carrier with both channels off (R136) -/

/-- The instructions of R136 that leave a carrier with both channels off to run on. -/
def KeepsCoasting (i : Instr) : Prop :=
  i = .toneoff ∨ i = .beepoff ∨ (∃ b, i = .settone b) ∨ ∃ b, i = .setbeep b

/-- An active module whose carrier runs with both channels off, and its accumulators. -/
structure State.Coasting (acc : Pair Word) (s : State) : Prop where
  active : s.active = true
  carrier : s.carrier = .running
  en : s.en = ⟨false, false⟩
  acc : s.acc = acc

namespace State.Coasting

variable {s t : State} {acc : Pair Word}

/-- Turning off what is off and a new frequency, admitted or refused, keep the carrier and the accumulators. -/
theorem exec {i : Instr} (hi : KeepsCoasting i) (h : s.Coasting acc) (hexec : Machine.exec i s = .next t) :
    t.Coasting acc := by
  rcases exec_cases hexec with ⟨r, rfl⟩ | hperf
  · exact ⟨h.active, h.carrier, h.en, h.acc⟩
  · cases hperf with
    | settone | setbeep => exact ⟨h.active, h.carrier, h.en, h.acc⟩
    | toneoff | beepoff => exact ⟨h.active, h.carrier, by simp [h.en], h.acc⟩
    | init | shutdown | toneon | beepon | timedbeep | tick => simp [KeepsCoasting] at hi

theorem run_trace (h : s.Coasting acc) {is : List Instr} {rest : List Event} (his : ∀ i ∈ is, KeepsCoasting i)
    (hpending : s.port = trace is ++ rest) :
    ∃ t, run is.length s = .next t ∧ t.port = rest ∧ t.Coasting acc :=
  Machine.run_trace (P := fun _ u => u.Coasting acc) (done := [])
    (fun _ hu => ⟨hu.active, hu.carrier, hu.en, hu.acc⟩) (fun hi hu hexec => hu.exec hi hexec) is his h hpending

end State.Coasting

/-- With both channels off a tick's auto-shutdown stops the carrier: the countdown turns neither on (R134). -/
theorem carrier_afterTick_of_off {s : State} (htone : s.en.tone = false) (hbeep : s.en.beep = false) :
    s.advance.countDown.autoShutdown.carrier = .idle := by
  rw [State.autoShutdown_carrier, State.countDown_en_tone, State.countDown_en_beep, State.advance_en, htone, hbeep]
  rfl

/-- Settles O43: the carrier coasts over the deliveries to the tick, which stops it; and BEEPON then BEEPOFF leave it
running with both channels off. -/
theorem carrierStopsAtTheNextTick : Obligations.CarrierStopsAtTheNextTick := by
  constructor
  · intro s is rest hactive hrunning hen his hpending
    rw [trace_append, List.append_assoc] at hpending
    have hcoasting : s.Coasting s.acc := ⟨hactive, hrunning, hen, rfl⟩
    obtain ⟨t, hrun, hport, ht⟩ := hcoasting.run_trace his hpending
    refine ⟨t, _, hrun, ht.carrier, ht.acc, run_then_tick hrun hport ht.active ht.carrier, ?idle, ?acc,
      dutyMatches_of_tick _⟩
    case idle => exact carrier_afterTick_of_off (congrArg Pair.tone ht.en) (congrArg Pair.beep ht.en)
    case acc => rw [State.autoShutdown_acc, State.countDown_acc, State.advance_acc]
  · intro s rest hactive htone hpending
    have hrun := (run_succ_of_performed 1 hpending (.beepon hactive)).trans
      (run_succ_of_performed 0 rfl (.beepoff hactive))
    exact ⟨_, _, hrun, rfl, run_then_tick hrun rfl hactive rfl, carrier_afterTick_of_off htone rfl⟩

end Sys2Proof.Machine
end

section
/-! SUPPORT. The words of the commands with an operand, what each kind of command answers when it is refused, what the
off commands leave, and which countdowns are refused (30_encoding.md R71, R72; 42_control.md R160, R170 to R185). -/

namespace Sys2Proof

/-! ### The low half of a word -/

/-- `RSV` is zero above the code in the low half of a packed word (R71). -/
theorem extractLsb'_low_packWord (opc : Byte) (opnd : Word) :
    (packWord opc opnd).extractLsb' 0 32 = opc.setWidth 32 := by
  apply BitVec.eq_of_getLsbD_eq
  intro i hi
  have hi' : i < 64 := by omega
  simp [packWord, hi, hi']

/-! ### Countdowns that are refused (R182) -/

/-- The three answers of R180, in the order of its checks. -/
theorem countdownValue_eq_ite (p : Params) (d : Word) :
    countdownValue p d =
      if d = 0 then .error .badDuration
      else if countdownTicks p d = 0 then .error .badDuration
      else if countdownTicks p d < 2 ^ 32 then .ok (BitVec.ofNat 32 (countdownTicks p d))
      else .error .durationRange := by
  unfold countdownValue
  simp only [← Nat.not_lt, ite_not]

theorem countdownTicks_zero (p : Params) : countdownTicks p 0 = 0 := by simp [countdownTicks]

/-- A duration of 0 has no ticks, so the first check is part of the second. -/
theorem zero_or_countdownTicks_eq_zero_iff {p : Params} {d : Word} :
    d = 0 ∨ countdownTicks p d = 0 ↔ countdownTicks p d = 0 := by
  refine or_iff_right_of_imp ?_
  rintro rfl
  exact countdownTicks_zero p

theorem countdownValue_of_ticks_eq_zero {p : Params} {d : Word} (h : countdownTicks p d = 0) :
    countdownValue p d = .error .badDuration := by
  rw [countdownValue, if_pos h, ite_self]

theorem countdownValue_of_ticks_ge {p : Params} {d : Word} (h : 2 ^ 32 ≤ countdownTicks p d) :
    countdownValue p d = .error .durationRange := by
  have hd : d ≠ 0 := by
    rintro rfl
    rw [countdownTicks_zero] at h
    omega
  rw [countdownValue, if_neg hd, if_neg (by omega), if_pos h]

/-- No ticks, a countdown, or too many ticks for one, each with its answer. -/
theorem countdownValue_cases (p : Params) (d : Word) :
    (countdownTicks p d = 0 ∧ countdownValue p d = .error .badDuration) ∨
    (0 < countdownTicks p d ∧ countdownTicks p d < 2 ^ 32 ∧
      countdownValue p d = .ok (BitVec.ofNat 32 (countdownTicks p d))) ∨
    (2 ^ 32 ≤ countdownTicks p d ∧ countdownValue p d = .error .durationRange) := by
  rcases Nat.eq_zero_or_pos (countdownTicks p d) with hzero | hpos
  · exact .inl ⟨hzero, countdownValue_of_ticks_eq_zero hzero⟩
  · rcases Nat.lt_or_ge (countdownTicks p d) (2 ^ 32) with hlt | hge
    · exact .inr (.inl ⟨hpos, hlt, countdownValue_of_bounds hpos hlt⟩)
    · exact .inr (.inr ⟨hge, countdownValue_of_ticks_ge hge⟩)

theorem countdownValue_eq_badDuration_iff {p : Params} {d : Word} :
    countdownValue p d = .error .badDuration ↔ countdownTicks p d = 0 := by
  refine ⟨fun h => ?_, countdownValue_of_ticks_eq_zero⟩
  rcases countdownValue_cases p d with ⟨hzero, -⟩ | ⟨-, -, hv⟩ | ⟨-, hv⟩
  · exact hzero
  · simp [hv] at h
  · simp [hv] at h

theorem countdownValue_eq_durationRange_iff {p : Params} {d : Word} :
    countdownValue p d = .error .durationRange ↔ 2 ^ 32 ≤ countdownTicks p d := by
  refine ⟨fun h => ?_, countdownValue_of_ticks_ge⟩
  rcases countdownValue_cases p d with ⟨-, hv⟩ | ⟨-, -, hv⟩ | ⟨hge, -⟩
  · simp [hv] at h
  · simp [hv] at h
  · exact hge

/-- A duration of a millisecond or more is without ticks only under a rate below 1000 (R182). -/
theorem carrierRate_lt_of_countdownTicks_eq_zero {p : Params} {d : Word} (hd : d ≠ 0)
    (h : countdownTicks p d = 0) : p.carrierRate < 1000 := by
  have hpos : 0 < d.toNat := Nat.pos_of_ne_zero fun hzero => hd (BitVec.eq_of_toNat_eq hzero)
  calc p.carrierRate ≤ d.toNat * p.carrierRate := Nat.le_mul_of_pos_left _ hpos
    _ < 1000 := by unfold countdownTicks at h; omega

end Sys2Proof

namespace Sys2Proof.Machine

/-! ### Admission (R160, R164) -/

theorem exec_init_of_active {s : State} (h : s.active = true) :
    exec .init s = .next (s.refuse .alreadyActive) :=
  congrArg (attempt s) (whenInactive_of_active h)

/-- Every command of the HOST but INIT and SHUTDOWN needs an active module, whatever its operand. -/
theorem exec_of_inactive {s : State} {i : Instr} (h : s.active = false) (hhost : agentOf i = .host)
    (hinit : i ≠ .init) (hshutdown : i ≠ .shutdown) : exec i s = .next (s.refuse .notActive) := by
  cases i with
  | init => exact absurd rfl hinit
  | shutdown => exact absurd rfl hshutdown
  | tick => cases hhost
  | settone | toneon | toneoff | setbeep | beepon | beepoff | timedbeep =>
    exact congrArg (attempt s) (whenActive_of_inactive h)

/-! ### Commands by what their operand converts to (R106, R180, R182) -/

/-- A frequency the converter refuses leaves the increment of either channel. -/
theorem setFrequency_of_error {s : State} {p : Params} {bits : Word} {r : RefusalReason} (c : Channel)
    (hs : s.active = true) (h : toIncrement p bits = .error r) : s.setFrequency p c bits = .error r := by
  rw [State.setFrequency, whenActive_of_active hs, incrementOperand, h, Except.map]

/-- In an active module the timed beep answers as the countdown of its duration does. -/
theorem timedBeep_of_active {s : State} (p : Params) (d : Word) (hs : s.active = true) :
    s.timedBeep p d = (countdownValue p d).map fun n => (s.channelOn .beep).setCnt n :=
  whenActive_of_active hs

/-- The timed beep under any parameters, by the ticks of its duration: refused with none, loaded where they fit 32 bits,
and refused beyond. -/
theorem attempt_timedBeep {s : State} (p : Params) (d : Word) (hs : s.active = true) :
    attempt s (s.timedBeep p d) = .next
      (if countdownTicks p d = 0 then s.refuse .badDuration
      else if 2 ^ 32 ≤ countdownTicks p d then s.refuse .durationRange
      else (s.channelOn .beep).setCnt (BitVec.ofNat 32 (countdownTicks p d))) := by
  rw [timedBeep_of_active p d hs]
  rcases countdownValue_cases p d with ⟨hzero, hv⟩ | ⟨hpos, hlt, hv⟩ | ⟨hge, hv⟩
  · rw [hv, if_pos hzero]; rfl
  · rw [hv, if_neg hpos.ne', if_neg hlt.not_ge]; rfl
  · rw [hv, if_neg (by omega), if_pos hge]; rfl

theorem attempt_timedBeep_of_bounds {s : State} {p : Params} {d : Word} (hs : s.active = true)
    (hpos : 0 < countdownTicks p d) (hlt : countdownTicks p d < 2 ^ 32) :
    attempt s (s.timedBeep p d) = .next ((s.channelOn .beep).setCnt (BitVec.ofNat 32 (countdownTicks p d))) := by
  rw [attempt_timedBeep p d hs, if_neg hpos.ne', if_neg hlt.not_ge]

theorem exec_timedbeep (s : State) (d : Word) :
    exec (.timedbeep d) s = attempt s (s.timedBeep Config.params d) := rfl

theorem exec_timedbeep_of_error {s : State} {d : Word} {r : RefusalReason} (hs : s.active = true)
    (h : countdownValue Config.params d = .error r) : exec (.timedbeep d) s = .next (s.refuse r) := by
  rw [exec_timedbeep, timedBeep_of_active _ _ hs, h]; rfl

/-! ### Writes that change nothing, and a tick after both channels are off -/

theorem Pair.set_of_get_eq {α : Type} {p : Pair α} {c : Channel} {v : α} (h : p.get c = v) : p.set c v = p := by
  subst h
  cases c <;> rfl

theorem State.channelOff_of_off {s : State} {c : Channel} (h : s.en.get c = false) : s.channelOff c = s := by
  rw [State.channelOff, State.setEn, Pair.set_of_get_eq h]

theorem State.setCarrier_of_carrier_eq {s : State} {v : Carrier} (h : s.carrier = v) : s.setCarrier v = s := by
  subst h
  rfl

theorem State.setPins_of_pin_eq {s : State} {m : PinMode} (h : s.pin = ⟨m, m⟩) : s.setPins m = s := by
  rw [State.setPins, ← h]

theorem State.setActive_of_active_eq {s : State} {b : Bool} (h : s.active = b) : s.setActive b = s := by
  subst h
  rfl

theorem State.setCnt_of_cnt_eq {s : State} {v : Word} (h : s.cnt = v) : s.setCnt v = s := by
  subst h
  rfl

/-- With both channels off the TIMER's step stops the carrier (R134). -/
theorem tick_stops_of_off {s : State} (hactive : s.active = true) (hrunning : s.carrier = .running)
    (htone : s.en.tone = false) (hbeep : s.en.beep = false) :
    ∃ u, exec .tick s = .next u ∧ u.carrier = .idle :=
  ⟨_, exec_of_performed (.tick ((tickEnabled_iff s).2 ⟨hactive, hrunning⟩)), carrier_afterTick_of_off htone hbeep⟩

end Sys2Proof.Machine
end

section
/-! PROOFS. The statements of 42_control.md: the session, the frequencies, the channels on and off, and the timed
beep. -/

namespace Sys2Proof.Machine

/-! ### The session -/

/-- Settles O17: INIT's effect has the fields listed, with the values it draws, and its refusal is the only other
answer. -/
theorem initInitialisesAnInactiveModule : Obligations.InitInitialisesAnInactiveModule :=
  ⟨by decide, rfl,
    fun s hinactive => ⟨s.drawDuties.duty, s.drawDuties.draws, exec_of_performed (.init hinactive)⟩,
    fun _ hactive => exec_init_of_active hactive⟩

/-- Settles O18: what SHUTDOWN writes is, by I3 and I4, what an inactive module holds already. -/
theorem shutdownEndsTheSession : Obligations.ShutdownEndsTheSession := by
  refine ⟨by decide, rfl, fun s => exec_of_performed .shutdown, fun s hinv hinactive => ?_⟩
  obtain ⟨-, -, hidle, hpins⟩ := hinv
  have hcarrier : s.carrier = .idle := hidle hinactive
  have hpin : s.pin = ⟨.quiescent, .quiescent⟩ := by rw [hpins, hinactive]; rfl
  rw [exec_of_performed .shutdown, State.setCarrier_of_carrier_eq hcarrier, State.setPins_of_pin_eq hpin,
    State.setActive_of_active_eq hinactive]

/-- Settles O19: SHUTDOWN leaves an inactive module, which is all that INIT asks for. -/
theorem shutdownAllowsANewInit : Obligations.ShutdownAllowsANewInit := by
  intro s
  exact ⟨_, _, exec_of_performed .shutdown, rfl, exec_of_performed (.init rfl),
    rfl, rfl, rfl, rfl, rfl, rfl, rfl, rfl⟩

/-- Settles O20: the admission of INIT, of SHUTDOWN, and of the commands that need a session. -/
theorem admissionOfCommands : Obligations.AdmissionOfCommands :=
  ⟨fun _ hactive => exec_init_of_active hactive,
    fun _ hinactive => ⟨_, exec_of_performed (.init hinactive), rfl, rfl⟩,
    fun _ => ⟨_, exec_of_performed .shutdown, rfl, rfl⟩,
    fun _ _ hinactive hhost hinit hshutdown => exec_of_inactive hinactive hhost hinit hshutdown⟩

/-! ### Frequencies -/

/-- Settles O21: SETTONE's effect where its operand converts, and its two refusals. -/
theorem settoneSetsTheToneIncrement : Obligations.SettoneSetsTheToneIncrement := by
  refine ⟨fun bits => ⟨extractLsb'_low_packWord 0x03 bits, opndField_packWord 0x03 bits, rfl⟩,
    fun s bits v hactive hv => exec_of_performed (.settone bits v hactive hv),
    fun s bits r hactive hr => congrArg (attempt s) (setFrequency_of_error .tone hactive hr),
    fun s bits hinactive => exec_of_inactive hinactive rfl nofun nofun, fun fmt => ?underEx1⟩
  case underEx1 => cases fmt <;> decide +kernel

/-- Settles O22: SETBEEP's effect where its operand converts, and its two refusals. -/
theorem setbeepSetsTheBeepIncrement : Obligations.SetbeepSetsTheBeepIncrement := by
  refine ⟨fun bits => ⟨extractLsb'_low_packWord 0x06 bits, opndField_packWord 0x06 bits, rfl⟩,
    fun s bits v hactive hv => exec_of_performed (.setbeep bits v hactive hv),
    fun s bits r hactive hr => congrArg (attempt s) (setFrequency_of_error .beep hactive hr),
    fun s bits hinactive => exec_of_inactive hinactive rfl nofun nofun, fun fmt => ?underEx1⟩
  case underEx1 => cases fmt <;> decide +kernel

/-! ### Channels on and off -/

/-- Settles O29: TONEON's effect, and its refusal. -/
theorem toneonEnablesAndStarts : Obligations.ToneonEnablesAndStarts :=
  ⟨by decide, rfl, fun _ hactive => exec_of_performed (.toneon hactive),
    fun _ hinactive => exec_of_inactive hinactive rfl nofun nofun⟩

/-- Settles O30: TONEOFF's effect leaves the carrier, which the next tick stops if BEEP is off too. -/
theorem toneoffDisablesAndLeavesTheCarrier : Obligations.ToneoffDisablesAndLeavesTheCarrier := by
  refine ⟨by decide, rfl, fun s hactive => exec_of_performed (.toneoff hactive),
    fun s hinactive => exec_of_inactive hinactive rfl nofun nofun, fun s hactive hrunning hbeep => ?_⟩
  obtain ⟨u, htick, hidle⟩ := tick_stops_of_off (s := s.channelOff .tone) hactive hrunning rfl hbeep
  exact ⟨_, u, exec_of_performed (.toneoff hactive), hrunning, htick, hidle⟩

/-- Settles O31: BEEPON's effect, and its refusal. -/
theorem beeponEnablesCancelsAndStarts : Obligations.BeeponEnablesCancelsAndStarts :=
  ⟨by decide, rfl, fun _ hactive => exec_of_performed (.beepon hactive),
    fun _ hinactive => exec_of_inactive hinactive rfl nofun nofun⟩

/-- Settles O32: BEEPOFF's effect leaves the carrier, which the next tick stops if TONE is off too. -/
theorem beepoffDisablesAndLeavesTheCarrier : Obligations.BeepoffDisablesAndLeavesTheCarrier := by
  refine ⟨by decide, rfl, fun s hactive => exec_of_performed (.beepoff hactive),
    fun s hinactive => exec_of_inactive hinactive rfl nofun nofun, fun s hactive hrunning htone => ?_⟩
  obtain ⟨u, htick, hidle⟩ :=
    tick_stops_of_off (s := (s.channelOff .beep).setCnt 0) hactive hrunning htone rfl
  exact ⟨_, u, exec_of_performed (.beepoff hactive), hrunning, htick, hidle⟩

/-- Settles O33: clearing an enable that is clear, and a countdown that is 0, changes nothing. -/
theorem offCommandsAreIdempotent : Obligations.OffCommandsAreIdempotent := by
  intro s hactive hen hcnt _
  have hoff (c : Channel) : s.channelOff c = s := State.channelOff_of_off (by rw [hen]; cases c <;> rfl)
  constructor
  · rw [exec_of_performed (.toneoff hactive), hoff]
  · rw [exec_of_performed (.beepoff hactive), hoff, State.setCnt_of_cnt_eq hcnt]

/-! ### The timed beep -/

/-- Settles O34: the timed beep by the ticks of its duration, under any parameters and so under the machine's. -/
theorem timedbeepLoadsTheCountdown : Obligations.TimedbeepLoadsTheCountdown := by
  refine ⟨fun d => ⟨extractLsb'_low_packWord 0x09 d, opndField_packWord 0x09 d, rfl⟩, exec_timedbeep,
    fun s p d hactive hpos hlt => attempt_timedBeep_of_bounds hactive hpos hlt, fun s p d hactive => ?byTicks,
    fun s d hactive hpos hlt => attempt_timedBeep_of_bounds hactive hpos hlt,
    fun s d r hactive hr => exec_timedbeep_of_error hactive hr, countdownValue_eq_ite,
    fun s d hinactive => exec_of_inactive hinactive rfl nofun nofun, by decide, fun fmt => ?underEx1⟩
  case byTicks =>
    rw [attempt_timedBeep p d hactive, ← if_congr zero_or_countdownTicks_eq_zero_iff rfl rfl]
    rfl
  case underEx1 => cases fmt <;> decide

/-- Settles O35: each refusal by the ticks of the duration, which under EX1 are `25.6` for a millisecond. -/
theorem timedbeepRefusals : Obligations.TimedbeepRefusals := by
  refine ⟨fun p d => countdownValue_eq_badDuration_iff.trans zero_or_countdownTicks_eq_zero_iff.symm,
    fun p d hd hzero => carrierRate_lt_of_countdownTicks_eq_zero hd hzero,
    fun p d => countdownValue_eq_durationRange_iff, fun fmt d => ?underEx1,
    fun s d r hactive hr => exec_timedbeep_of_error hactive hr⟩
  case underEx1 =>
    rw [countdownValue_eq_durationRange_iff]
    change 2 ^ 32 ≤ d.toNat * 25600 / 1000 ↔ 167772160 ≤ d.toNat
    omega

end Sys2Proof.Machine
end

section
/-! SUPPORT. Which words decode, and to what: a word with a zero `RSV` is its code and its operand packed, and each row of
the host's map makes the instruction whose encoding has the row's code (30_encoding.md R71 to R78). -/

namespace Sys2Proof

/-- A word with a zero `RSV` is made of its other two fields (R71). -/
theorem packWord_fields {w : CmdWord} (hrsv : rsvField w = 0) : packWord (opcField w) (opndField w) = w := by
  apply BitVec.eq_of_getLsbD_eq
  intro i hi
  have hbit : (rsvField w).getLsbD (i - 8) = false := by rw [hrsv]; exact BitVec.getLsbD_zero
  rw [rsvField, BitVec.getLsbD_extractLsb'] at hbit
  simp only [packWord, opcField, opndField, BitVec.getLsbD_or, BitVec.getLsbD_shiftLeft, BitVec.getLsbD_setWidth,
    BitVec.getLsbD_extractLsb']
  by_cases hopc : i < 8
  · simp [hi, hopc, show i < 32 by omega]
  · by_cases hrange : i < 32
    · have hclear : w[i] = false := by simpa [show i - 8 < 24 by omega, show 8 + (i - 8) = i by omega, hi] using hbit
      simp [hi, hopc, hrange, hclear]
    · simp [hi, hopc, hrange, show i - 32 < 32 by omega, show 32 + (i - 32) = i by omega, show i - 32 < 64 by omega]

/-- The words that decode, and what to (R78): TICK from the TIMER, or a row of the host's map from the HOST. -/
theorem decode_ok_cases {src : Agent} {w : CmdWord} {i : Instr} (h : decode src w = .ok i) :
    rsvField w = 0 ∧
      ((src = .timer ∧ opcField w = 0x80 ∧ opndField w = 0 ∧ i = .tick) ∨
        (src = .host ∧ ∃ form make, hostRow (opcField w) = some (form, make) ∧ (form = .n → opndField w = 0) ∧
          i = make (opndField w))) := by
  by_cases hrsv : rsvField w = 0
  case neg => rw [decode_of_rsvField_ne_zero hrsv] at h; cases h
  refine ⟨hrsv, ?_⟩
  cases src with
  | timer =>
    by_cases hopc : opcField w = 0x80
    · rw [decode_timer_of_tickCode hrsv hopc] at h
      split_ifs at h with hopnd
      cases h
      exact .inl ⟨rfl, hopc, not_not.1 hopnd, rfl⟩
    · rw [decode_timer_of_not_tickCode hrsv hopc] at h; cases h
  | host =>
    by_cases hopc : opcField w = 0x80
    · rw [decode_host_of_tickCode hrsv hopc] at h; cases h
    · cases hrow : hostRow (opcField w) with
      | none => rw [decode_of_hostRow_none hrsv hopc hrow] at h; cases h
      | some row =>
        obtain ⟨form, make⟩ := row
        rw [decode_host_of_hostRow hrsv hrow] at h
        split_ifs at h with hopnd
        cases h
        exact .inr ⟨rfl, form, make, rfl, fun hform => not_not.1 fun hne => hopnd ⟨hform, hne⟩, rfl⟩

/-- The instruction a row makes is a command of the HOST, and its encoding has the row's code and the operand, which a
row of form N asks to be zero (R72, R73). -/
theorem encode_of_hostRow {opc : Byte} {opnd : Word} {form : Form} {make : Word → Instr}
    (hrow : hostRow opc = some (form, make)) (hopnd : form = .n → opnd = 0) :
    agentOf (make opnd) = .host ∧ encode (make opnd) = packWord opc opnd := by
  unfold hostRow at hrow
  split at hrow
  case h_10 => cases hrow
  case h_3 h | h_6 h | h_9 h =>
    cases hrow
    exact ⟨rfl, congrArg (packWord · opnd) (BitVec.eq_of_toNat_eq h.symm)⟩
  all_goals
    rename_i h
    cases hrow
    rw [hopnd rfl]
    exact ⟨rfl, congrArg (packWord · 0) (BitVec.eq_of_toNat_eq h.symm)⟩

/-- The rows of form N are not those of the three commands with an operand (R72, R73). -/
theorem not_takesOperand_of_hostRow_formN {w : CmdWord} {make : Word → Instr}
    (hrow : hostRow (opcField w) = some (.n, make)) : takesOperand w = false := by
  rw [Bool.eq_false_iff]
  intro htakes
  have hcode : (opcField w).toNat = 3 ∨ (opcField w).toNat = 6 ∨ (opcField w).toNat = 9 := by
    simpa [takesOperand, opcField] using htakes
  unfold hostRow at hrow
  rcases hcode with h | h | h <;> rw [h] at hrow <;> cases hrow

theorem wellFormed_iff {src : Agent} {w : CmdWord} :
    wellFormed src w = true ↔
      rsvField w = 0 ∧ codeAllowed src (opcField w).toNat = true ∧ (takesOperand w = false → opndField w = 0) := by
  have hopnd : operandAllowed w = true ↔ (takesOperand w = false → opndField w = 0) := by
    unfold operandAllowed
    cases takesOperand w with
    | true => simp
    | false => simp [opndField]
  rw [wellFormed, Bool.and_eq_true, Bool.and_eq_true, and_assoc, hopnd, rsvClear, beq_iff_eq]
  rfl

/-- Every encoding is a well-formed word of its agent. -/
theorem wellFormed_encode (i : Instr) : wellFormed (agentOf i) (encode i) = true := by
  cases i with
  | init => exact Laws.EncodeWellFormed.init
  | shutdown => exact Laws.EncodeWellFormed.shutdown
  | settone bits => exact Laws.EncodeWellFormed.settone bits
  | toneon => exact Laws.EncodeWellFormed.toneon
  | toneoff => exact Laws.EncodeWellFormed.toneoff
  | setbeep bits => exact Laws.EncodeWellFormed.setbeep bits
  | beepon => exact Laws.EncodeWellFormed.beepon
  | beepoff => exact Laws.EncodeWellFormed.beepoff
  | timedbeep d => exact Laws.EncodeWellFormed.timedbeep d
  | tick => exact Laws.EncodeWellFormed.tick

/-- A well-formed word decodes: its code is TICK's or has a row in the host's map, and the row's form admits its operand. -/
theorem decode_of_wellFormed {src : Agent} {w : CmdWord} (h : wellFormed src w = true) :
    ∃ i, decode src w = .ok i := by
  obtain ⟨hrsv, hcode, hopnd⟩ := wellFormed_iff.1 h
  cases src with
  | timer =>
    have hopc : opcField w = 0x80 := BitVec.eq_of_toNat_eq (by simpa [codeAllowed] using hcode)
    have hzero : opndField w = 0 := hopnd (by simp [takesOperand, show w.extractLsb' 0 8 = 0x80 from hopc])
    exact ⟨.tick, by rw [decode_timer_of_tickCode hrsv hopc, if_neg (not_not_intro hzero)]⟩
  | host =>
    have hsome : (hostRow (opcField w)).isSome = true :=
      (hostRow_isSome_iff _).2 (by simpa [codeAllowed] using hcode)
    obtain ⟨⟨form, make⟩, hrow⟩ := Option.isSome_iff_exists.1 hsome
    refine ⟨make (opndField w), ?_⟩
    rw [decode_host_of_hostRow hrsv hrow, if_neg]
    rintro ⟨rfl, hne⟩
    exact hne (hopnd (not_takesOperand_of_hostRow_formN hrow))

/-- A stream that begins with a word's bytes begins with what the word decodes to (R79). -/
theorem decodeBytes_bytesOfWord_append {src : Agent} {w : CmdWord} {i : Instr} (rest : List Byte)
    (h : decode src w = .ok i) : decodeBytes src (bytesOfWord w ++ rest) = .ok (i, rest) := by
  rw [← wordOfBytes_bytesOfWord w] at h
  simp only [bytesOfWord, List.cons_append, List.nil_append, decodeBytes, h]

end Sys2Proof
end

section
/-! PROOFS. The statements on which words decode and to what, and on what a step does with its delivery
(30_encoding.md sections 2 to 4, 20_memory.md section 3). -/

namespace Sys2Proof.Machine

/-- Settles O1: the decoder reads back every encoding, and the bytes of a word make the word. -/
theorem decodeOfEncodeIsIdentity : Obligations.DecodeOfEncodeIsIdentity :=
  fun i rest => ⟨decode_encode i, decodeBytes_bytesOfWord_append rest (decode_encode i)⟩

/-- Settles O2, by the two kinds of words that decode, each packed again from its fields. -/
theorem decodedWordIsItsEncoding : Obligations.DecodedWordIsItsEncoding := by
  intro src w i h
  obtain ⟨hrsv, ⟨rfl, hopc, hopnd, rfl⟩ | ⟨rfl, form, make, hrow, hopnd, rfl⟩⟩ := decode_ok_cases h
  · refine ⟨rfl, ?_⟩
    rw [← packWord_fields hrsv, hopc, hopnd]
    rfl
  · obtain ⟨hagent, hencode⟩ := encode_of_hostRow hrow hopnd
    exact ⟨hagent.symm, by rw [hencode, packWord_fields hrsv]⟩

/-- Settles O3: a word that decodes is an encoding, which is well-formed, and every well-formed word decodes. -/
theorem decodeAcceptsExactlyWellFormedWords : Obligations.DecodeAcceptsExactlyWellFormedWords := by
  intro src w
  constructor
  · rintro ⟨i, h⟩
    obtain ⟨rfl, rfl⟩ := decodedWordIsItsEncoding src w i h
    exact wellFormed_encode i
  · exact decode_of_wellFormed

/-- Settles O10: the TIMER delivers no code but TICK's. -/
theorem nonTickFromTimerIsRefused : Obligations.NonTickFromTimerIsRefused := by
  intro s w rest hport hrsv hopc
  exact step_of_decode_error hport (decode_timer_of_not_tickCode hrsv hopc)

/-- Settles O11: what is pending is the decoded instruction, in the state with its delivery taken. -/
theorem stepRunsTheDecodedInstruction : Obligations.StepRunsTheDecodedInstruction :=
  fun _ _ _ _ hport hdecode => step_of_decode_ok hport hdecode

/-- Settles O12: the refusal of the state with its delivery taken. -/
theorem undecodableWordSetsOnlyTheFlag : Obligations.UndecodableWordSetsOnlyTheFlag :=
  fun _ _ _ _ hport hdecode => step_of_decode_error hport hdecode

/-- Settles O13, by whether the TIMER has its step. -/
theorem emptyPortLetsTheTimerTick : Obligations.EmptyPortLetsTheTimerTick := by
  intro s hport
  exact ⟨fun hactive hrunning => step_of_tickEnabled hport ((tickEnabled_iff s).2 ⟨hactive, hrunning⟩),
    fun hout => step_of_not_tickEnabled hport (tickEnabled_eq_false hout)⟩

end Sys2Proof.Machine
end

section
/-! SUPPORT. What a step can change: the fields each instruction writes, and that a refused step writes the flag alone
(10_state.md R20, R40; 60_exceptions.md R225). -/

namespace Sys2Proof.Machine

/-! ### Every step and every run answers -/

theorem step_answers (s : State) : ∃ t, step s = .next t := by
  rcases step_cases s with ⟨i, u, -, h⟩ | ⟨r, u, -, h⟩ | ⟨-, h⟩
  · rw [h]; exact exec_answers i u
  · exact ⟨_, h⟩
  · exact ⟨_, h⟩

theorem run_answers (n : Nat) (s : State) : ∃ t, run n s = .next t := by
  induction n generalizing s with
  | zero => exact ⟨s, rfl⟩
  | succ n ih =>
    obtain ⟨u, hu⟩ := step_answers s
    obtain ⟨t, ht⟩ := ih u
    exact ⟨t, (run_succ n hu).trans ht⟩

/-! ### The refused flag (R40) -/

/-- An instruction that has its effect is not refused: it leaves the flag and the recorded reason. -/
theorem Performed.flag {s t : State} {i : Instr} (h : Performed s i t) :
    t.refused = s.refused ∧ t.lastRefusal = s.lastRefusal := by
  cases h with
  | tick => exact ⟨by simp, by simp⟩
  | init | shutdown | settone | toneon | toneoff | setbeep | beepon | beepoff | timedbeep => exact ⟨rfl, rfl⟩

/-- A step leaves the flag and the recorded reason, or is a refusal that takes its delivery. -/
theorem step_flag_or_refusal {s t : State} (h : step s = .next t) :
    (t.refused = s.refused ∧ t.lastRefusal = s.lastRefusal) ∨
      ∃ r, t = ({ s with port := s.port.tail } : State).refuse r := by
  rcases step_next_cases h with ⟨-, rfl⟩ | ⟨e, rest, r, hport, rfl⟩ | ⟨i, u, -, rfl | ⟨_, _, -, rfl⟩, hperf⟩
  · exact .inl ⟨rfl, rfl⟩
  · exact .inr ⟨r, by rw [hport]; rfl⟩
  · exact .inl hperf.flag
  · exact .inl hperf.flag

theorem step_keeps_refused {s t : State} (hs : s.refused = true) (h : step s = .next t) : t.refused = true := by
  rcases step_flag_or_refusal h with ⟨hflag, -⟩ | ⟨r, rfl⟩
  · exact hflag.trans hs
  · rfl

/-! ### Which instructions write a field (R20) -/

section writers

variable {s t : State} {i : Instr}

theorem Performed.active_writers (h : Performed s i t) : t.active = s.active ∨ i = .init ∨ i = .shutdown := by
  cases h with
  | init | shutdown => simp
  | tick => exact .inl (by simp)
  | _ => exact .inl rfl

theorem Performed.pin_writers (h : Performed s i t) : t.pin = s.pin ∨ i = .init ∨ i = .shutdown := by
  cases h with
  | init | shutdown => simp
  | tick => exact .inl (by simp)
  | _ => exact .inl rfl

theorem Performed.carrier_writers (h : Performed s i t) :
    t.carrier = s.carrier ∨ i = .init ∨ i = .shutdown ∨ i = .toneon ∨ i = .beepon ∨ (∃ d, i = .timedbeep d) ∨
      i = .tick := by
  cases h with
  | settone | setbeep | toneoff | beepoff => exact .inl rfl
  | _ => simp

theorem Performed.en_tone_writers (h : Performed s i t) :
    t.en.tone = s.en.tone ∨ i = .init ∨ i = .toneon ∨ i = .toneoff := by
  cases h with
  | init | toneon | toneoff => simp
  | tick => exact .inl (by simp)
  | _ => exact .inl rfl

theorem Performed.en_beep_writers (h : Performed s i t) :
    t.en.beep = s.en.beep ∨ i = .init ∨ i = .beepon ∨ i = .beepoff ∨ (∃ d, i = .timedbeep d) ∨ i = .tick := by
  cases h with
  | shutdown | settone | setbeep | toneon | toneoff => exact .inl rfl
  | _ => simp

theorem Performed.inc_tone_writers (h : Performed s i t) :
    t.inc.tone = s.inc.tone ∨ i = .init ∨ ∃ b, i = .settone b := by
  cases h with
  | init | settone => simp
  | tick => exact .inl (by simp)
  | _ => exact .inl rfl

theorem Performed.inc_beep_writers (h : Performed s i t) :
    t.inc.beep = s.inc.beep ∨ i = .init ∨ ∃ b, i = .setbeep b := by
  cases h with
  | init | setbeep => simp
  | tick => exact .inl (by simp)
  | _ => exact .inl rfl

theorem Performed.acc_writers (h : Performed s i t) : t.acc = s.acc ∨ i = .init ∨ i = .tick := by
  cases h with
  | init | tick => simp
  | _ => exact .inl rfl

theorem Performed.duty_writers (h : Performed s i t) : t.duty = s.duty ∨ i = .init ∨ i = .tick := by
  cases h with
  | init | tick => simp
  | _ => exact .inl rfl

theorem Performed.cnt_writers (h : Performed s i t) :
    t.cnt = s.cnt ∨ i = .init ∨ i = .beepon ∨ i = .beepoff ∨ (∃ d, i = .timedbeep d) ∨ i = .tick := by
  cases h with
  | shutdown | settone | setbeep | toneon | toneoff => exact .inl rfl
  | _ => simp

end writers

/-- A step that changes what neither taking a delivery nor a refusal changes performs the pending instruction, from the
state with its delivery taken. -/
theorem performed_of_changed {α : Type} {f : State → α} (hport : ∀ (s : State) rest, f { s with port := rest } = f s)
    (hrefuse : ∀ (s : State) r, f (s.refuse r) = f s) {s t : State} (h : step s = .next t) (hne : f t ≠ f s) :
    ∃ i rest, s.pending = .run i { s with port := rest } ∧ Performed { s with port := rest } i t := by
  rcases step_next_cases h with ⟨-, rfl⟩ | ⟨e, rest, r, -, rfl⟩ | ⟨i, u, hpending, hu, hperf⟩
  · exact absurd rfl hne
  · exact absurd ((hrefuse _ r).trans (hport s rest)) hne
  · rcases hu with rfl | ⟨e, rest, -, rfl⟩
    · exact ⟨i, _, hpending, hperf⟩
    · exact ⟨i, rest, hpending, hperf⟩

/-- A step that changes a field performs one of the field's writers. -/
theorem performs_writer {α : Type} {f : State → α} {Writer : Instr → Prop}
    (hport : ∀ (s : State) rest, f { s with port := rest } = f s) (hrefuse : ∀ (s : State) r, f (s.refuse r) = f s)
    (hwriters : ∀ {s t : State} {i : Instr}, Performed s i t → f t = f s ∨ Writer i)
    {s t : State} (h : step s = .next t) (hne : f t ≠ f s) : ∃ i, Writer i ∧ s.performs i := by
  obtain ⟨i, rest, hpending, hperf⟩ := performed_of_changed hport hrefuse h hne
  exact ⟨i, (hwriters hperf).resolve_left fun heq => hne (heq.trans (hport s rest)), _, hpending⟩

/-! ### The carrier (R225) -/

/-- Only the three commands that turn a channel on start the carrier, and only in an active module. -/
theorem Performed.starts_carrier {s t : State} {i : Instr} (h : Performed s i t) (hidle : s.carrier = .idle)
    (hrunning : t.carrier = .running) :
    s.active = true ∧ (i = .toneon ∨ i = .beepon ∨ ∃ d, i = .timedbeep d) := by
  cases h with
  | toneon h | beepon h | timedbeep _ _ h => exact ⟨h, by simp⟩
  | init | shutdown => cases hrunning
  | settone | setbeep | toneoff | beepoff => exact absurd (hidle.symm.trans hrunning) (by decide)
  | tick h => exact absurd (hidle.symm.trans ((tickEnabled_iff s).1 h).2) (by decide)

/-- A tick stops the carrier only with both channels off; INIT and SHUTDOWN stop it always. -/
theorem Performed.stops_carrier {s t : State} {i : Instr} (h : Performed s i t) (hrunning : s.carrier = .running)
    (hidle : t.carrier = .idle) : (i = .tick ∧ t.en = ⟨false, false⟩) ∨ i = .init ∨ i = .shutdown := by
  cases h with
  | init | shutdown => simp
  | toneon | beepon | timedbeep => cases hidle
  | settone | setbeep | toneoff | beepoff => exact absurd (hidle.symm.trans hrunning) (by decide)
  | tick =>
    rcases autoShutdown_cases s.advance.countDown with ⟨-, he⟩ | ⟨htone, hbeep, he⟩
    · rw [he, State.countDown_carrier, State.advance_carrier, hrunning] at hidle
      cases hidle
    · exact .inl ⟨rfl, by rw [State.autoShutdown_en]; exact Pair.ext_fields htone hbeep⟩

/-! ### The record determines the next one (R35) -/

/-- The recorded reason is the only thing in which the answers of an instruction differ when it is given two states that
differ in nothing else. -/
theorem exec_withReason {s t u : State} {i : Instr} {r : Option RefusalReason} (hs : exec i s = .next t)
    (hr : exec i (s.withReason r) = .next u) : t.observe = u.observe ∧ t.port = u.port ∧ t.draws = u.draws := by
  rcases exec_cases hs with ⟨r₁, rfl⟩ | hperf
  · rcases exec_cases hr with ⟨r₂, rfl⟩ | hperf
    · exact ⟨rfl, rfl, rfl⟩
    · have hback : exec i s = .next (u.withReason s.lastRefusal) := exec_of_performed (hperf.withReason s.lastRefusal)
      have hsame : s.refuse r₁ = u.withReason s.lastRefusal := Host.Outcome.next.inj (hs.symm.trans hback)
      exact ⟨(congrArg State.observe hsame :), (congrArg State.port hsame :), (congrArg State.draws hsame :)⟩
  · have hsame : u = t.withReason r := Host.Outcome.next.inj (hr.symm.trans (exec_of_performed (hperf.withReason r)))
    subst hsame
    exact ⟨rfl, rfl, rfl⟩

theorem step_withReason {s t u : State} {r : Option RefusalReason} (hs : step s = .next t)
    (hr : step (s.withReason r) = .next u) : t.observe = u.observe ∧ t.port = u.port ∧ t.draws = u.draws := by
  rcases pending_cases s with ⟨e, rest, i, hp, hd, -⟩ | ⟨e, rest, r', hp, hd, -⟩ | ⟨hp, ht, -⟩ | ⟨hp, ht, -⟩
  · rw [step_of_decode_ok hp hd] at hs
    rw [step_of_decode_ok (s := s.withReason r) hp hd] at hr
    exact exec_withReason hs hr
  · rw [step_of_decode_error hp hd] at hs
    rw [step_of_decode_error (s := s.withReason r) hp hd] at hr
    cases hs; cases hr
    exact ⟨rfl, rfl, rfl⟩
  · rw [step_of_tickEnabled hp ht] at hs
    rw [step_of_tickEnabled (s := s.withReason r) hp ht] at hr
    exact exec_withReason hs hr
  · rw [step_of_not_tickEnabled hp ht] at hs
    rw [step_of_not_tickEnabled (s := s.withReason r) hp ht] at hr
    cases hs; cases hr
    exact ⟨rfl, rfl, rfl⟩

end Sys2Proof.Machine
end

section
/-! PROOFS. The statements on the whole machine: its invariants, that it never stops, the refused flag, the writers of
each field, and the carrier (10_state.md, 60_exceptions.md). -/

namespace Sys2Proof.Machine

/-! ### The invariants I1 to I4 (R33) -/

theorem Performed.inv {s t : State} {i : Instr} (h : Performed s i t) (hs : s.Inv) : t.Inv := by
  obtain ⟨hserves, howned, -, hpins⟩ := hs
  exact ⟨h.carrierServes hserves, h.countdownOwned howned, h.idleOutside, h.pinsFollow hpins⟩

/-- Settles O46: each instruction's effect keeps the invariants, and they read neither the port nor the flag. -/
theorem stepKeepsTheStateInvariant : Obligations.StepKeepsTheStateInvariant := by
  intro s t hs h
  exact step_preserves (P := State.Inv) (fun _ _ hinv => hinv) (fun _ _ hinv => hinv) (fun hinv hperf => hperf.inv hinv)
    hs h

/-- Settles O47: I1, I3 and I4 as at every power-on, and I2 by the model's countdown of 0 at reset (log 6). -/
theorem resetMeetsTheStateInvariant : Obligations.ResetMeetsTheStateInvariant := by
  have hreset : State.reset.ReachableInv := State.PowerOn.reachableInv ⟨rfl, rfl, rfl, rfl⟩
  exact ⟨hreset.carrierServes, fun _ => rfl, hreset.idleOutside, hreset.pinsFollow⟩

/-! ### Refusals -/

/-- Settles O14, by induction on the number of steps. -/
theorem noRunFaultsOrStops : Obligations.NoRunFaultsOrStops := run_answers

/-- Settles O15, by what a step can do. -/
theorem stepKeepsTheFlagOrOnlyRefuses : Obligations.StepKeepsTheFlagOrOnlyRefuses :=
  fun _ _ h => step_flag_or_refusal h

/-- Settles O16: a step that does not leave the recorded reason is a refusal, and no step clears the flag. -/
theorem refusedFlagIsNeverCleared : Obligations.RefusedFlagIsNeverCleared := by
  refine ⟨rfl, fun s t h hne => ?_, fun n s t hrun hs => ?_⟩
  · rcases step_flag_or_refusal h with ⟨-, hreason⟩ | ⟨r, rfl⟩
    · exact absurd hreason hne
    · rfl
  · exact run_preserves (P := fun s => s.refused = true) step_keeps_refused hs hrun

/-! ### Determinism, and the writers of the fields -/

/-- Settles O50: the recorded reason is all that the hypotheses leave open, and no step reads it. -/
theorem recordDeterminesTheNextRecord : Obligations.RecordDeterminesTheNextRecord := by
  intro s₁ s₂ t₁ t₂ hobs hport hdraws h₁ h₂
  rw [State.eq_withReason hobs hport hdraws] at h₂
  exact step_withReason h₁ h₂

/-- Settles O51: what starts the carrier and what stops it, and the empty step of an Idle block (log 2). -/
theorem carrierStartsAndStopsOnlyAsStated : Obligations.CarrierStartsAndStopsOnlyAsStated := by
  refine ⟨fun s t h hidle hrunning => ?starts, fun s t h hrunning hidle => ?stops, fun s hidle hport => ?quiet⟩
  case starts =>
    obtain ⟨i, rest, hpending, hperf⟩ := performed_of_changed (f := State.carrier) (fun _ _ => rfl) (fun _ _ => rfl) h
      (by rw [hidle, hrunning]; decide)
    obtain ⟨hactive, rfl | rfl | ⟨d, rfl⟩⟩ := hperf.starts_carrier hidle hrunning
    · exact ⟨hactive, .inl ⟨_, hpending⟩⟩
    · exact ⟨hactive, .inr (.inl ⟨_, hpending⟩)⟩
    · exact ⟨hactive, .inr (.inr ⟨d, _, hpending⟩)⟩
  case stops =>
    obtain ⟨i, rest, hpending, hperf⟩ := performed_of_changed (f := State.carrier) (fun _ _ => rfl) (fun _ _ => rfl) h
      (by rw [hidle, hrunning]; decide)
    rcases hperf.stops_carrier hrunning hidle with ⟨rfl, hoff⟩ | rfl | rfl
    · exact .inl ⟨⟨_, hpending⟩, hoff⟩
    · exact .inr (.inl ⟨_, hpending⟩)
    · exact .inr (.inr ⟨_, hpending⟩)
  case quiet => exact step_of_not_tickEnabled hport (tickEnabled_eq_false (.inr hidle))

/-- Settles O52: field by field, the instructions that write it. -/
theorem fieldsChangeOnlyByTheirWriters : Obligations.FieldsChangeOnlyByTheirWriters := by
  intro s t h
  refine ⟨fun hne => ?active, fun hne => ?carrier, fun hne => ?pin, fun hne => ?enTone, fun hne => ?enBeep,
    fun hne => ?incTone, fun hne => ?incBeep, fun hne => ?acc, fun hne => ?duty, fun hne => ?cnt, fun hne => ?refused⟩
  case refused => exact (step_flag_or_refusal h).resolve_left fun hflag => hne hflag.1
  case active =>
    simpa [or_and_right, exists_or] using
      performs_writer (f := State.active) (fun _ _ => rfl) (fun _ _ => rfl) Performed.active_writers h hne
  case carrier =>
    simpa [or_and_right, exists_or] using
      performs_writer (f := State.carrier) (fun _ _ => rfl) (fun _ _ => rfl) Performed.carrier_writers h hne
  case pin =>
    simpa [or_and_right, exists_or] using
      performs_writer (f := State.pin) (fun _ _ => rfl) (fun _ _ => rfl) Performed.pin_writers h hne
  case enTone =>
    simpa [or_and_right, exists_or] using
      performs_writer (f := (·.en.tone)) (fun _ _ => rfl) (fun _ _ => rfl) Performed.en_tone_writers h hne
  case enBeep =>
    simpa [or_and_right, exists_or] using
      performs_writer (f := (·.en.beep)) (fun _ _ => rfl) (fun _ _ => rfl) Performed.en_beep_writers h hne
  case incTone =>
    simpa [or_and_right, exists_or] using
      performs_writer (f := (·.inc.tone)) (fun _ _ => rfl) (fun _ _ => rfl) Performed.inc_tone_writers h hne
  case incBeep =>
    simpa [or_and_right, exists_or] using
      performs_writer (f := (·.inc.beep)) (fun _ _ => rfl) (fun _ _ => rfl) Performed.inc_beep_writers h hne
  case acc =>
    simpa [or_and_right, exists_or] using
      performs_writer (f := State.acc) (fun _ _ => rfl) (fun _ _ => rfl) Performed.acc_writers h hne
  case duty =>
    simpa [or_and_right, exists_or] using
      performs_writer (f := State.duty) (fun _ _ => rfl) (fun _ _ => rfl) Performed.duty_writers h hne
  case cnt =>
    simpa [or_and_right, exists_or] using
      performs_writer (f := State.cnt) (fun _ _ => rfl) (fun _ _ => rfl) Performed.cnt_writers h hne

/-! ### The line output (R115) -/

theorem State.lineDuty_eq_some_iff {s : State} {c : Channel} {v : Byte} :
    s.lineDuty c = some v ↔ s.en.get c = true ∧ s.pin.get c = .driving ∧ s.duty.get c = v := by
  unfold State.lineDuty
  split_ifs with h
  · obtain ⟨hen, hpin⟩ : s.en.get c = true ∧ s.pin.get c = .driving := by simpa using h
    simp [hen, hpin]
  · simp only [Bool.and_eq_true, beq_iff_eq, not_and] at h
    simp only [false_iff]
    exact fun ⟨hen, hpin, _⟩ => h hen hpin

/-- Settles O54: the definition, and that SHUTDOWN leaves both lines quiescent. -/
theorem lineNeedsEnableAndDrive : Obligations.LineNeedsEnableAndDrive := by
  refine ⟨fun s c v => State.lineDuty_eq_some_iff, fun s t c h => ?_⟩
  rw [exec_of_performed .shutdown] at h
  cases h
  rw [Option.eq_none_iff_forall_ne_some]
  intro v hv
  obtain ⟨-, hdriving, -⟩ := State.lineDuty_eq_some_iff.1 hv
  cases c <;> cases hdriving

/-! ### The countdown (R181) -/

/-- Settles O36: what is loaded is the exact quotient by 1000. -/
theorem countdownIsExact : Obligations.CountdownIsExact := by
  intro p d v h
  obtain ⟨-, -, hv⟩ := countdownValue_ok h
  rw [hv, countdownTicks]
  omega

end Sys2Proof.Machine
end

section
/-! PROOFS. The statements of 40_datapath.md on the phase after many ticks, and on what the converter answers and
refuses. -/

namespace Sys2Proof

/-! ### Patterns outside the converter's domain (R106) -/

theorem f32_of_exponent_max {bits : Word} (h : bits.extractLsb' 23 8 = 255#8) :
    (f32 bits).isNaN = true ∨ (f32 bits).isInf = true := by
  unfold f32
  rw [if_pos (by rw [h]; rfl)]
  split_ifs
  · exact .inr rfl
  · exact .inl rfl

/-- A pattern without the greatest exponent is finite: its sign is bit 31, and it is zero where its other bits are. -/
theorem f32_of_exponent_lt {bits : Word} (h : bits.extractLsb' 23 8 ≠ 255#8) :
    ∃ k, f32 bits = .fin (bits.getLsbD 31) k ∧ (k = 0 ↔ bits.extractLsb' 0 31 = 0) := by
  have hexp : (bits.extractLsb' 23 8).toNat ≠ 255 := fun he => h (BitVec.eq_of_toNat_eq he)
  have hzero : bits.extractLsb' 0 31 = 0 ↔
      (bits.extractLsb' 23 8).toNat = 0 ∧ (bits.extractLsb' 0 23).toNat = 0 := by
    rw [← BitVec.toNat_inj, show (0 : BitVec 31).toNat = 0 from rfl]
    simp only [BitVec.extractLsb'_toNat, Nat.shiftRight_eq_div_pow]
    omega
  unfold f32
  dsimp only
  rw [if_neg hexp]
  split_ifs with he
  · exact ⟨_, rfl, by rw [hzero, he]; simp⟩
  · refine ⟨_, rfl, ?_⟩
    rw [hzero]
    have hpos : 0 < (2 ^ 23 + (bits.extractLsb' 0 23).toNat) * 2 ^ ((bits.extractLsb' 23 8).toNat - 1) := by positivity
    exact ⟨fun h0 => absurd h0 hpos.ne', fun ⟨h0, _⟩ => absurd h0 he⟩

/-- The patterns outside the converter's domain, by their bits (R106). -/
theorem outside_domain_iff (bits : Word) :
    ((f32 bits).isNaN || (f32 bits).isInf || (f32 bits).isNeg) = true ↔
      bits.extractLsb' 23 8 = 255#8 ∨ (bits.getLsbD 31 = true ∧ bits.extractLsb' 0 31 ≠ 0) := by
  by_cases hexp : bits.extractLsb' 23 8 = 255#8
  · rcases f32_of_exponent_max hexp with h | h <;> simp [h, hexp]
  · obtain ⟨k, hk, hzero⟩ := f32_of_exponent_lt hexp
    rw [hk, Ne, ← hzero]
    simp [Fp.isNaN, Fp.isInf, Fp.isNeg, hexp]

/-! ### What truncation answers -/

/-- The whole numbers of `2^u` units around a magnitude (R105). -/
theorem truncIncrement_ok_iff_bounds {fmt : FpFormat} {x : Fp} {v : Word} :
    truncIncrement fmt x = .ok v ↔
      ∃ neg k, x = .fin neg k ∧ v.toNat * 2 ^ fmt.unitExp ≤ k ∧ k < (v.toNat + 1) * 2 ^ fmt.unitExp := by
  have hunit : 0 < 2 ^ fmt.unitExp := Nat.two_pow_pos _
  rw [truncIncrement_ok_iff]
  refine exists_congr fun neg => exists_congr fun k => and_congr_right fun _ => ?_
  have hwhole : v.toNat = k / 2 ^ fmt.unitExp ↔
      v.toNat * 2 ^ fmt.unitExp ≤ k ∧ k < (v.toNat + 1) * 2 ^ fmt.unitExp := by
    rw [eq_comm, Nat.div_eq_iff hunit, Nat.succ_mul]
    omega
  rw [← hwhole, and_iff_right_iff_imp]
  intro hv
  rw [pow_add, ← Nat.div_lt_iff_lt_mul hunit, ← hv]
  exact v.isLt

/-- Truncation refuses with `IncrementRange` alone. -/
theorem truncIncrement_cases (fmt : FpFormat) (x : Fp) :
    (∃ neg k, x = .fin neg k ∧ k < 2 ^ (32 + fmt.unitExp) ∧ ∃ v, truncIncrement fmt x = .ok v) ∨
    ((¬∃ neg k, x = .fin neg k ∧ k < 2 ^ (32 + fmt.unitExp)) ∧ truncIncrement fmt x = .error .incrementRange) := by
  match x with
  | .nan | .inf _ => exact .inr ⟨by simp, rfl⟩
  | .fin neg k =>
    rw [truncIncrement_fin]
    split_ifs with hk
    · exact .inl ⟨neg, k, rfl, hk, _, rfl⟩
    · exact .inr ⟨by simpa using hk, rfl⟩

theorem truncIncrement_eq_incrementRange_iff {fmt : FpFormat} {x : Fp} :
    truncIncrement fmt x = .error .incrementRange ↔ ¬∃ neg k, x = .fin neg k ∧ k < 2 ^ (32 + fmt.unitExp) := by
  rcases truncIncrement_cases fmt x with ⟨neg, k, hx, hk, v, hv⟩ | ⟨hout, he⟩
  · simp only [hv, reduceCtorEq, false_iff, not_not]
    exact ⟨neg, k, hx, hk⟩
  · simp only [he, hout, not_false_eq_true]

end Sys2Proof

namespace Sys2Proof.Machine

/-- Settles O23: in the domain the converter truncates the quotient, and outside it there is no answer. -/
theorem converterTruncatesTheQuotient : Obligations.ConverterTruncatesTheQuotient := by
  refine ⟨fun p bits v => ?quotient, fun fmt => ?underEx1⟩
  case quotient =>
    rcases toIncrement_cases p bits with ⟨hout, h⟩ | ⟨hin, h⟩
    · rw [h]
      simp only [reduceCtorEq, false_iff]
      rintro ⟨⟨hnan, hinf, hneg⟩, -⟩
      simp [hnan, hinf, hneg] at hout
    · obtain ⟨⟨hnan, hinf⟩, hneg⟩ := by simpa only [Bool.or_eq_false_iff] using hin
      rw [h, truncIncrement_ok_iff_bounds]
      exact (and_iff_right ⟨hnan, hinf, hneg⟩).symm
  case underEx1 => cases fmt <;> decide +kernel

/-- Settles O24: the two refusals, by the domain of the pattern and by the quotient. -/
theorem converterDomain : Obligations.ConverterDomain := by
  refine ⟨fun p bits => ?badFrequency, fun p bits => ?incrementRange, fun fmt => ?underEx1⟩
  case badFrequency =>
    rw [← outside_domain_iff]
    rcases toIncrement_cases p bits with ⟨hout, h⟩ | ⟨hin, h⟩
    · simp only [h, hout]
    · rw [h, hin]
      rcases truncIncrement_cases p.fmt (conversion p (f32 bits)) with ⟨_, _, _, _, v, hv⟩ | ⟨_, he⟩
      · simp [hv]
      · simp [he]
  case incrementRange =>
    rw [← outside_domain_iff]
    rcases toIncrement_cases p bits with ⟨hout, h⟩ | ⟨hin, h⟩
    · simp [h, hout]
    · rw [h, hin, truncIncrement_eq_incrementRange_iff]
      simp
  case underEx1 => cases fmt <;> decide +kernel

/-! ### The phase after many ticks (R112) -/

/-- What `n` ticks in a row from `s` lead to, where each of them is admitted: each accumulator has moved by `n`
increments, BEEP is off exactly when its countdown has run out, and the carrier has stopped exactly when that left both
channels off. -/
structure State.TickedFrom (s : State) (n : Nat) (t : State) : Prop where
  active : t.active = s.active
  inc : t.inc = s.inc
  refused : t.refused = s.refused
  acc : ∀ c, (t.acc.get c).toNat = ((s.acc.get c).toNat + n * (s.inc.get c).toNat) % 2 ^ 32
  duty : 0 < n → t.DutyMatches
  cnt : t.cnt.toNat = s.cnt.toNat - n
  tone : t.en.tone = s.en.tone
  beep : t.en.beep = true ↔ s.en.beep = true ∧ (s.cnt = 0 ∨ n < s.cnt.toNat)
  carrier : t.carrier = if s.en.tone = true ∨ s.cnt = 0 ∨ n < s.cnt.toNat then .running else .idle

/-- The premise of R112 for `n` ticks: TONE is on, or BEEP is for as long. -/
def State.ServedFor (s : State) (n : Nat) : Prop :=
  s.en.tone = true ∨ (s.en.beep = true ∧ (s.cnt = 0 ∨ n ≤ s.cnt.toNat))

namespace State.TickedFrom

variable {s t : State} {n : Nat}

theorem zero (hrunning : s.carrier = .running) : s.TickedFrom 0 s where
  active := rfl
  inc := rfl
  refused := rfl
  acc c := by simp [Nat.mod_eq_of_lt (s.acc.get c).isLt]
  duty h := absurd h (lt_irrefl 0)
  cnt := rfl
  tone := rfl
  beep := by
    have hcnt : s.cnt = 0 ∨ 0 < s.cnt.toNat := by bv_omega
    exact ⟨fun hon => ⟨hon, hcnt⟩, fun ⟨hon, _⟩ => hon⟩
  carrier := by
    have hcnt : s.cnt = 0 ∨ 0 < s.cnt.toNat := by bv_omega
    rw [hrunning, if_pos (.inr hcnt)]

theorem withPort (h : s.TickedFrom n t) (rest : List Event) : s.TickedFrom n { t with port := rest } :=
  ⟨h.active, h.inc, h.refused, h.acc, h.duty, h.cnt, h.tone, h.beep, h.carrier⟩

/-- Before the last tick that the premise allows the carrier runs. -/
theorem running (h : s.TickedFrom n t) (hserved : s.ServedFor (n + 1)) : t.carrier = .running := by
  rw [h.carrier, if_pos]
  rcases hserved with htone | ⟨-, hzero | hle⟩
  · exact .inl htone
  · exact .inr (.inl hzero)
  · exact .inr (.inr hle)

/-- One tick more. -/
theorem tick (h : s.TickedFrom n t) (hserved : s.ServedFor (n + 1)) :
    s.TickedFrom (n + 1) t.advance.countDown.autoShutdown := by
  have hbeep : t.advance.countDown.en.beep = true ↔ s.en.beep = true ∧ (s.cnt = 0 ∨ n + 1 < s.cnt.toNat) := by
    have hone : t.cnt ≠ 1 ↔ s.cnt.toNat - n ≠ 1 := by rw [← h.cnt, Ne, ← BitVec.toNat_inj]; rfl
    have hzero : s.cnt = 0 ↔ s.cnt.toNat = 0 := by rw [← BitVec.toNat_inj]; rfl
    rw [countDown_en_beep, advance_en, advance_cnt, Bool.and_eq_true, h.beep, bne_iff_ne, hone, hzero, and_assoc]
    refine and_congr_right fun _ => ?_
    omega
  constructor
  case active => simpa using h.active
  case inc => simpa using h.inc
  case refused => simpa using h.refused
  case acc =>
    intro c
    rw [autoShutdown_acc, countDown_acc, advance_acc_get, BitVec.toNat_add, h.acc, h.inc, Nat.succ_mul]
    omega
  case duty => exact fun _ => dutyMatches_of_tick t
  case cnt =>
    have hcnt := h.cnt
    rw [autoShutdown_cnt, countDown_cnt, advance_cnt]
    split_ifs <;> bv_omega
  case tone => simpa using h.tone
  case beep => rw [autoShutdown_en, hbeep]
  case carrier =>
    rw [autoShutdown_carrier, countDown_carrier, advance_carrier, h.running hserved]
    refine if_congr ?_ rfl rfl
    rw [Bool.or_eq_true, hbeep, countDown_en_tone, advance_en, h.tone]
    rcases hserved with htone | ⟨hon, -⟩
    · simp [htone]
    · simp [hon]

/-- The duty registers in the terms of R112, the accumulators being reduced modulo 2^24 for the index. -/
theorem duty_get (h : s.TickedFrom n t) (hpos : 0 < n) (c : Channel) :
    t.duty.get c = Config.sineTable
      (BitVec.ofNat 8 (((s.acc.get c).toNat + n * (s.inc.get c).toNat) % 2 ^ 24 / 2 ^ 16)) := by
  rw [(h.duty hpos).get c]
  refine congrArg Config.sineTable (BitVec.eq_of_toNat_eq ?_)
  rw [tableIndex_toNat, h.acc, BitVec.toNat_ofNat]
  omega

end State.TickedFrom

/-- The ticks of R112, one by one. -/
theorem run_ticks {s : State} (hactive : s.active = true) (hrunning : s.carrier = .running) (n : Nat)
    {rest : List Event} (hserved : s.ServedFor n) (hport : s.port = List.replicate n (eventOf .tick) ++ rest) :
    ∃ t, run n s = .next t ∧ t.port = rest ∧ s.TickedFrom n t := by
  induction n generalizing rest with
  | zero => exact ⟨s, rfl, hport, .zero hrunning⟩
  | succ n ih =>
    have hbefore : s.ServedFor n := hserved.imp_right fun ⟨hbeep, hcnt⟩ => ⟨hbeep, hcnt.imp_right Nat.le_of_succ_le⟩
    rw [List.replicate_succ', List.append_assoc] at hport
    obtain ⟨t, hrun, hleft, ht⟩ := ih hbefore hport
    exact ⟨_, run_then_tick hrun hleft (ht.active.trans hactive) (ht.running hserved), by simp,
      (ht.withPort rest).tick hserved⟩

/-- Settles O40, by induction on the number of ticks. -/
theorem phaseLaw : Obligations.PhaseLaw := by
  intro n s rest hactive hrunning hserved hport
  obtain ⟨t, hrun, hleft, ht⟩ := run_ticks hactive hrunning n hserved hport
  refine ⟨t, hrun, hleft, ht.inc, ht.refused, fun hon => ?running, fun htone hcnt hn => ?stopped, ht.acc .tone,
    ht.acc .beep, fun hpos => ⟨ht.duty_get hpos .tone, ht.duty_get hpos .beep⟩⟩
  case running => rw [ht.carrier, if_pos hon]
  case stopped =>
    rw [ht.carrier, if_neg]
    rintro (hon | hzero | hlt)
    · exact absurd (htone.symm.trans hon) (by decide)
    · exact hcnt hzero
    · exact hlt.ne hn

end Sys2Proof.Machine
end

section
/-! SUPPORT. Rounding gives a nearest value of the precision, ties to even, and there is only one; where it overflows; and
the same in the rationals (spec 00_scope.md R9, log 10). -/

namespace Sys2Proof

/-! ### Binary digits -/

theorem bitLength_le_of_lt_two_pow {n b : Nat} (h : n < 2 ^ b) : bitLength n ≤ b := by
  by_contra hlt
  exact absurd h (Nat.not_lt.2 (two_pow_le_of_lt_bitLength (Nat.lt_of_not_le hlt)))

theorem lt_bitLength_of_two_pow_le {n b : Nat} (h : 2 ^ b ≤ n) : b < bitLength n := by
  by_contra hle
  exact absurd ((lt_two_pow_bitLength n).trans_le (Nat.pow_le_pow_right two_pos (Nat.le_of_not_lt hle))) (Nat.not_lt.2 h)

/-! ### To a whole number -/

/-- The quotient rounds down or up by its remainder, and half way to the even neighbour. -/
theorem roundToEven_cases (num den : Nat) :
    (2 * (num % den) < den ∧ roundToEven num den = num / den) ∨
    (den < 2 * (num % den) ∧ roundToEven num den = num / den + 1) ∨
    (2 * (num % den) = den ∧ roundToEven num den = num / den + num / den % 2) := by
  unfold roundToEven
  dsimp only
  split_ifs <;> omega

/-- Half way between two whole numbers the even one is taken. -/
theorem roundToEven_even_of_tie {num den : Nat} (h : 2 * (num % den) = den) : roundToEven num den % 2 = 0 := by
  rcases roundToEven_cases num den with ⟨hlt, -⟩ | ⟨hlt, -⟩ | ⟨-, he⟩ <;> omega

/-- No whole number is nearer to the quotient, and none but the rounded one is as near except half way. -/
theorem roundToEven_nearest {den : Nat} (hden : 0 < den) (num v : Nat) :
    |(roundToEven num den : Int) * den - num| ≤ |(v : Int) * den - num| ∧
      (|(roundToEven num den : Int) * den - num| = |(v : Int) * den - num| → v ≠ roundToEven num den →
        2 * (num % den) = den) := by
  have hcases := roundToEven_cases num den
  have hdiv := Nat.div_add_mod num den
  have hmod := Nat.mod_lt num hden
  generalize roundToEven num den = r at hcases ⊢
  generalize num / den = q at hcases hdiv
  generalize num % den = m at hcases hdiv hmod ⊢
  rw [mul_comm den q] at hdiv
  have hother : (v < q ∧ v * den + den ≤ q * den) ∨ (v = q ∧ v * den = q * den) ∨
      (v = q + 1 ∧ v * den = q * den + den) ∨ (q + 1 < v ∧ q * den + 2 * den ≤ v * den) := by
    rcases Nat.lt_trichotomy v q with hlt | rfl | hgt
    · exact .inl ⟨hlt, by nlinarith⟩
    · exact .inr (.inl ⟨rfl, rfl⟩)
    · rcases (Nat.succ_le_of_lt hgt).eq_or_lt with rfl | hgt
      · exact .inr (.inr (.inl ⟨rfl, Nat.succ_mul q den⟩))
      · exact .inr (.inr (.inr ⟨hgt, by nlinarith⟩))
  have hround : (2 * m ≤ den ∧ r = q) ∨ (den ≤ 2 * m ∧ r = q + 1) := by omega
  simp only [Int.abs_eq_natAbs, ← Nat.cast_mul]
  rcases hround with ⟨hm, rfl⟩ | ⟨hm, rfl⟩
  · omega
  · rw [Nat.succ_mul]
    omega

/-- A quotient rounds to less than an even number exactly when it is below it by more than a half: the tie goes to the
even number. -/
theorem roundToEven_lt_succ_iff {num den k : Nat} (hden : 0 < den) (hodd : k % 2 = 1) :
    roundToEven num den < k + 1 ↔ 2 * num < (2 * k + 1) * den := by
  have hcases := roundToEven_cases num den
  have hdiv := Nat.div_add_mod num den
  have hmod := Nat.mod_lt num hden
  have hhalf : (2 * k + 1) * den = 2 * (den * k) + den := by ring
  rw [hhalf]
  rcases Nat.lt_trichotomy (num / den) k with hlt | heq | hgt
  · have hbelow : den * (num / den) + den ≤ den * k := by
      rw [← Nat.mul_succ]; exact Nat.mul_le_mul_left den hlt
    omega
  · rw [heq] at hcases hdiv
    omega
  · have habove : den * k + den ≤ den * (num / den) := by
      rw [← Nat.mul_succ]; exact Nat.mul_le_mul_left den hgt
    omega

/-! ### To a significand -/

/-- The whole number of the units kept, which is what is rounded to even. -/
def keptUnits (prec num den : Nat) : Nat := roundToEven num (den * 2 ^ excessBits prec num den)

theorem roundUnits_eq (prec num den : Nat) :
    roundUnits prec num den = keptUnits prec num den * 2 ^ excessBits prec num den := rfl

theorem keptUnits_le (prec num den : Nat) : keptUnits prec num den ≤ 2 ^ prec := by
  have h := roundUnits_le_two_pow prec num den
  rw [roundUnits_eq, pow_add] at h
  exact Nat.le_of_mul_le_mul_right h (Nat.two_pow_pos _)

/-- Up to `2^prec`, and that number too, whole numbers of a power of two have a significand of `prec` bits. -/
theorem exists_significand {prec q : Nat} (hprec : 0 < prec) (hq : q ≤ 2 ^ prec) (e : Nat) :
    ∃ m e', m < 2 ^ prec ∧ q * 2 ^ e = m * 2 ^ e' := by
  rcases hq.lt_or_eq with hlt | rfl
  · exact ⟨q, e, hlt, rfl⟩
  · refine ⟨1, prec + e, Nat.one_lt_two_pow hprec.ne', ?_⟩
    rw [one_mul, pow_add]

/-- Where digits are dropped, the leading digit of the magnitude is `2^prec / 2` of the units kept. -/
theorem half_mul_le_of_excessBits_pos {prec num den : Nat} (hprec : 0 < prec) (hpos : 0 < excessBits prec num den) :
    2 ^ (prec - 1) * (den * 2 ^ excessBits prec num den) ≤ num := by
  have hlead : 2 ^ (prec - 1 + excessBits prec num den) ≤ num / den :=
    two_pow_le_of_lt_bitLength (by unfold excessBits at *; omega)
  calc 2 ^ (prec - 1) * (den * 2 ^ excessBits prec num den)
      = den * 2 ^ (prec - 1 + excessBits prec num den) := by rw [pow_add]; ring
    _ ≤ den * (num / den) := Nat.mul_le_mul_left den hlead
    _ ≤ num := Nat.mul_div_le num den

/-- A significand with more digits dropped than fit is below the leading digit of the magnitude. -/
theorem significand_lt_half {prec m e E : Nat} (hprec : 0 < prec) (hm : m < 2 ^ prec) (he : e < E) :
    m * 2 ^ e < 2 ^ (prec - 1) * 2 ^ E := by
  calc m * 2 ^ e < 2 ^ prec * 2 ^ e := Nat.mul_lt_mul_of_pos_right hm (Nat.two_pow_pos e)
    _ = 2 ^ (prec + e) := (pow_add 2 prec e).symm
    _ ≤ 2 ^ (prec - 1 + E) := Nat.pow_le_pow_right two_pos (by omega)
    _ = 2 ^ (prec - 1) * 2 ^ E := pow_add 2 _ _

/-- No value of the precision is nearer than the rounded one, and none but it is as near except half way between two
neighbours. Those with a lower exponent are below the leading digit, which is nearer. -/
theorem roundUnits_nearest {prec den m : Nat} (hprec : 0 < prec) (hden : 0 < den) (num e : Nat) (hm : m < 2 ^ prec) :
    |(roundUnits prec num den : Int) * den - num| ≤ |(m : Int) * 2 ^ e * den - num| ∧
      (|(roundUnits prec num den : Int) * den - num| = |(m : Int) * 2 ^ e * den - num| →
        m * 2 ^ e ≠ roundUnits prec num den →
        2 * (num % (den * 2 ^ excessBits prec num den)) = den * 2 ^ excessBits prec num den) := by
  have hunit : 0 < den * 2 ^ excessBits prec num den := by positivity
  have hround : (roundUnits prec num den : Int) * den =
      (keptUnits prec num den : Int) * (den * 2 ^ excessBits prec num den : Nat) := by
    rw [roundUnits_eq]; push_cast; ring
  rw [hround]
  rcases Nat.lt_or_ge e (excessBits prec num den) with he | he
  · have hhalf := half_mul_le_of_excessBits_pos hprec (Nat.zero_lt_of_lt he)
    obtain ⟨hle, -⟩ := roundToEven_nearest hunit num (2 ^ (prec - 1))
    have hbelow : m * 2 ^ e * den < 2 ^ (prec - 1) * (den * 2 ^ excessBits prec num den) := by
      have hlt := Nat.mul_lt_mul_of_pos_right (significand_lt_half hprec hm he) hden
      calc m * 2 ^ e * den < 2 ^ (prec - 1) * 2 ^ excessBits prec num den * den := hlt
        _ = 2 ^ (prec - 1) * (den * 2 ^ excessBits prec num den) := by ring
    have hstrict : |(keptUnits prec num den : Int) * (den * 2 ^ excessBits prec num den : Nat) - num| <
        |(m : Int) * 2 ^ e * den - num| := by
      refine lt_of_le_of_lt hle ?_
      zify at hbelow hhalf
      push_cast
      rw [abs_of_nonpos (by linarith), abs_of_nonpos (by linarith)]
      linarith
    exact ⟨hstrict.le, fun heq => absurd heq hstrict.ne⟩
  · obtain ⟨d, rfl⟩ := Nat.exists_eq_add_of_le he
    have hm' : (m : Int) * 2 ^ (excessBits prec num den + d) * den =
        ((m * 2 ^ d : Nat) : Int) * (den * 2 ^ excessBits prec num den : Nat) := by
      push_cast; rw [pow_add]; ring
    obtain ⟨hle, htie⟩ := roundToEven_nearest hunit num (m * 2 ^ d)
    rw [hm']
    refine ⟨hle, fun heq hne => htie heq fun hkept => hne ?_⟩
    rw [roundUnits_eq, keptUnits, ← hkept, pow_add]
    ring

/-! ### Overflow -/

/-- A magnitude past the limit rounds past it: its leading digit is kept. -/
theorem roundUnits_ge_of_ge {prec num den L : Nat} (hprec : 0 < prec) (hL : prec < L) (h : 2 ^ L ≤ num / den) :
    2 ^ L ≤ roundUnits prec num den := by
  have hbits : L < bitLength (num / den) := lt_bitLength_of_two_pow_le h
  obtain ⟨k, hk⟩ : ∃ k, excessBits prec num den = k + 1 :=
    Nat.exists_eq_succ_of_ne_zero (by unfold excessBits; omega)
  calc 2 ^ L ≤ 2 ^ (prec + k) := Nat.pow_le_pow_right two_pos (by unfold excessBits at hk; omega)
    _ ≤ roundUnits prec num den := two_pow_le_roundUnits hk hprec

/-- A magnitude whose leading digit is two places or more below the limit rounds below it. -/
theorem roundUnits_lt_of_lt {prec num den L : Nat} (hL : prec < L) (h : num / den < 2 ^ (L - 1)) :
    roundUnits prec num den < 2 ^ L := by
  have hbits : bitLength (num / den) ≤ L - 1 := bitLength_le_of_lt_two_pow h
  calc roundUnits prec num den ≤ 2 ^ (prec + excessBits prec num den) := roundUnits_le_two_pow _ _ _
    _ < 2 ^ L := Nat.pow_lt_pow_right one_lt_two (by unfold excessBits; omega)

/-- The limit less half a step, of which there are `2^prec` below the limit: in halves of a step. -/
theorem limit_sub_half_step {prec L : Nat} (hL : prec < L) :
    2 ^ L - 2 ^ (L - prec - 1) = (2 * (2 ^ prec - 1) + 1) * 2 ^ (L - prec - 1) := by
  have hpow : (2 : Nat) ^ L = 2 * 2 ^ prec * 2 ^ (L - prec - 1) := by
    rw [← pow_succ', ← pow_add]; congr 1; omega
  have hone := Nat.one_le_two_pow (n := prec)
  rw [hpow, show 2 * (2 ^ prec - 1) + 1 = 2 * 2 ^ prec - 1 by omega, Nat.sub_mul, one_mul]

/-- Rounding stays below a limit exactly below half a step under it. -/
theorem roundUnits_lt_two_pow_iff {prec den L : Nat} (hprec : 0 < prec) (hden : 0 < den) (hL : prec < L) (num : Nat) :
    roundUnits prec num den < 2 ^ L ↔ num < (2 ^ L - 2 ^ (L - prec - 1)) * den := by
  have hstep : 2 ^ (L - prec - 1) ≤ 2 ^ (L - 1) := Nat.pow_le_pow_right two_pos (by omega)
  have hhalf : 2 ^ L = 2 ^ (L - 1) + 2 ^ (L - 1) := by rw [← Nat.two_mul, ← pow_succ']; congr 1; omega
  rcases Nat.lt_or_ge (num / den) (2 ^ (L - 1)) with hlow | hlow
  · have hnum : num < 2 ^ (L - 1) * den := (Nat.div_lt_iff_lt_mul hden).1 hlow
    exact iff_of_true (roundUnits_lt_of_lt hL hlow) (hnum.trans_le (Nat.mul_le_mul_right den (by omega)))
  rcases Nat.lt_or_ge (num / den) (2 ^ L) with hhigh | hhigh
  · have hexcess : excessBits prec num den = L - prec := by
      have hle : bitLength (num / den) ≤ L := bitLength_le_of_lt_two_pow hhigh
      have hge : L - 1 < bitLength (num / den) := lt_bitLength_of_two_pow_le hlow
      unfold excessBits
      omega
    have hpow : (2 : Nat) ^ L = (2 ^ prec - 1 + 1) * 2 ^ (L - prec) := by
      rw [Nat.sub_add_cancel Nat.one_le_two_pow, ← pow_add]; congr 1; omega
    have hodd : (2 ^ prec - 1) % 2 = 1 := by
      obtain ⟨p, rfl⟩ := Nat.exists_eq_succ_of_ne_zero hprec.ne'
      have hpos := Nat.two_pow_pos p
      rw [pow_succ]
      omega
    have hunit : (2 : Nat) ^ (L - prec) = 2 * 2 ^ (L - prec - 1) := by rw [← pow_succ']; congr 1; omega
    rw [limit_sub_half_step hL, roundUnits_eq, keptUnits, hexcess, hpow, Nat.mul_lt_mul_right (Nat.two_pow_pos _),
      roundToEven_lt_succ_iff (by positivity) hodd, hunit]
    rw [show (2 * (2 ^ prec - 1) + 1) * (den * (2 * 2 ^ (L - prec - 1))) =
      2 * ((2 * (2 ^ prec - 1) + 1) * 2 ^ (L - prec - 1) * den) by ring]
    exact Nat.mul_lt_mul_left two_pos
  · have hnum : 2 ^ L * den ≤ num := (Nat.le_div_iff_mul_le hden).1 hhigh
    refine iff_of_false (Nat.not_lt.2 (roundUnits_ge_of_ge hprec hL hhigh)) (Nat.not_lt.2 ?_)
    exact (Nat.mul_le_mul_right den (Nat.sub_le _ _)).trans hnum

theorem FpFormat.precision_lt_limitExp (fmt : FpFormat) : fmt.precision < fmt.limitExp := by
  cases fmt <;> decide

/-- Rounding in a format, by whether it overflows. -/
theorem roundFp_eq_ite (fmt : FpFormat) (neg : Bool) (num : Nat) {den : Nat} (hden : 0 < den) :
    roundFp fmt neg num den =
      if (2 ^ fmt.limitExp - 2 ^ (fmt.limitExp - fmt.precision - 1)) * den ≤ num then .inf neg
      else .fin neg (roundUnits fmt.precision num den) := by
  have hlimit := roundUnits_lt_two_pow_iff fmt.precision_pos hden fmt.precision_lt_limitExp num
  unfold roundFp
  dsimp only
  by_cases h : num < (2 ^ fmt.limitExp - 2 ^ (fmt.limitExp - fmt.precision - 1)) * den
  · rw [if_neg (Nat.not_le.2 h), if_pos (hlimit.2 h)]
  · rw [if_pos (Nat.not_lt.1 h), if_neg (mt hlimit.1 h)]

end Sys2Proof

namespace Sys2Proof.Machine

/-- Settles O27: the significand, nearness and the tie of `roundUnits`, and the limit at which `roundFp` overflows. -/
theorem roundingIsToNearestEven : Obligations.RoundingIsToNearestEven := by
  refine ⟨fun prec num den hprec hden => ⟨exists_significand hprec (keptUnits_le prec num den) _,
    fun m e hm => (roundUnits_nearest hprec hden num e hm).1, fun htie => ?even⟩,
    fun fmt neg num den hden => roundFp_eq_ite fmt neg num hden⟩
  case even =>
    rw [roundUnits_eq, Nat.mul_div_cancel _ (Nat.two_pow_pos _)]
    exact roundToEven_even_of_tie htie

end Sys2Proof.Machine
end

section
/-! SUPPORT. The rounded value of an exact rational: that rounding reaches it, and that there is no other (spec 00_scope.md
R9, log 10). -/

namespace Sys2Proof

theorem FpFormat.one_lt_precision (fmt : FpFormat) : 1 < fmt.precision := by
  cases fmt <;> decide

end Sys2Proof

namespace Sys2Proof.Machine

/-! ### Values of the precision, and the parity of their significands -/

theorem fitsPrecision_roundUnits (fmt : FpFormat) (num den : Nat) :
    FitsPrecision fmt (roundUnits fmt.precision num den) :=
  exists_significand fmt.precision_pos (keptUnits_le _ _ _) _

/-- An even number of steps has an even significand, up to `2^precision` steps, which is a power of two. -/
theorem evenSignificand_of_even {fmt : FpFormat} {q e : Nat} (hq : q ≤ 2 ^ fmt.precision) (heven : q % 2 = 0) :
    EvenSignificand fmt (q * 2 ^ e) := by
  unfold EvenSignificand
  rcases hq.lt_or_eq with hlt | rfl
  · have hbits : bitLength (q * 2 ^ e) - fmt.precision ≤ e := by
      have hle : bitLength (q * 2 ^ e) ≤ fmt.precision + e :=
        bitLength_le_of_lt_two_pow (by rw [pow_add]; exact Nat.mul_lt_mul_of_pos_right hlt (Nat.two_pow_pos e))
      omega
    obtain ⟨d, hd⟩ := Nat.exists_eq_add_of_le hbits
    generalize bitLength (q * 2 ^ e) - fmt.precision = b at hd ⊢
    subst hd
    rw [pow_add, Nat.mul_comm (2 ^ b), ← Nat.mul_assoc, Nat.mul_div_cancel _ (Nat.two_pow_pos b), Nat.mul_mod, heven]
    simp
  · have hpow : 2 ^ fmt.precision * 2 ^ e = 2 ^ (fmt.precision - 1) * 2 ^ (e + 1) := by
      have := fmt.precision_pos
      rw [← pow_add, ← pow_add]; congr 1; omega
    have hbits : bitLength (2 ^ fmt.precision * 2 ^ e) - fmt.precision = e + 1 := by
      have hle := bitLength_le_of_lt_two_pow (n := 2 ^ fmt.precision * 2 ^ e) (b := fmt.precision + e + 1)
        (by rw [← pow_add]; exact Nat.pow_lt_pow_right one_lt_two (Nat.lt_succ_self _))
      have hlt := lt_bitLength_of_two_pow_le (n := 2 ^ fmt.precision * 2 ^ e) (pow_add 2 fmt.precision e).le
      omega
    rw [hbits, hpow, Nat.mul_div_cancel _ (Nat.two_pow_pos _)]
    obtain ⟨p, hp⟩ := Nat.exists_eq_add_of_le fmt.one_lt_precision
    rw [hp, show 1 + 1 + p - 1 = p + 1 by omega, pow_succ]
    exact Nat.mul_mod_left _ _

/-- The step between neighbours at `k` units: how much the last digit of the significand counts. -/
def stepAt (fmt : FpFormat) (k : Nat) : Nat := 2 ^ (bitLength k - fmt.precision)

theorem stepAt_pos (fmt : FpFormat) (k : Nat) : 0 < stepAt fmt k := Nat.two_pow_pos _

theorem evenSignificand_iff {fmt : FpFormat} {k : Nat} : EvenSignificand fmt k ↔ k / stepAt fmt k % 2 = 0 := Iff.rfl

/-- A value of the precision is a whole number of steps, below `2^precision` of them. -/
theorem FitsPrecision.exists_steps {fmt : FpFormat} {k : Nat} (h : FitsPrecision fmt k) :
    ∃ m, m < 2 ^ fmt.precision ∧ k = m * stepAt fmt k := by
  obtain ⟨m, e, hm, hk⟩ := h
  have hstep : bitLength k - fmt.precision ≤ e := by
    have hle : bitLength k ≤ fmt.precision + e :=
      bitLength_le_of_lt_two_pow (by rw [hk, pow_add]; exact Nat.mul_lt_mul_of_pos_right hm (Nat.two_pow_pos e))
    omega
  have hdvd : stepAt fmt k ∣ k := by
    rw [stepAt, hk]
    exact (Nat.pow_dvd_pow 2 (hk ▸ hstep)).trans (Nat.dvd_mul_left _ _)
  refine ⟨k / stepAt fmt k, ?_, (Nat.div_mul_cancel hdvd).symm⟩
  rw [Nat.div_lt_iff_lt_mul (stepAt_pos fmt k), stepAt, ← pow_add]
  exact (lt_two_pow_bitLength k).trans_le (Nat.pow_le_pow_right two_pos (by omega))

theorem stepAt_dvd_stepAt {fmt : FpFormat} {j k : Nat} (h : j ≤ k) : stepAt fmt j ∣ stepAt fmt k :=
  Nat.pow_dvd_pow 2 (Nat.sub_le_sub_right (bitLength_mono h) _)

/-- From `j` on, below `2^precision` steps of it, the step stays the same. -/
theorem stepAt_eq_of_lt {fmt : FpFormat} {j k : Nat} (hle : j ≤ k) (hlt : k < 2 ^ fmt.precision * stepAt fmt j) :
    stepAt fmt k = stepAt fmt j := by
  rw [stepAt, ← pow_add] at hlt
  have hbits := bitLength_le_of_lt_two_pow hlt
  have hmono := bitLength_mono hle
  unfold stepAt
  congr 1
  omega

/-- Between two values of the precision with even significands there is a third: the neighbour of the lower one, whose
significand is odd. -/
theorem exists_fits_between {fmt : FpFormat} {j k : Nat} (hj : FitsPrecision fmt j) (hk : FitsPrecision fmt k)
    (hlt : j < k) (hjeven : EvenSignificand fmt j) (hkeven : EvenSignificand fmt k) :
    ∃ v, FitsPrecision fmt v ∧ j < v ∧ v < k := by
  obtain ⟨m, hm, hjm⟩ := hj.exists_steps
  obtain ⟨n, -, hkn⟩ := hk.exists_steps
  have hpos := stepAt_pos fmt j
  have hmeven : m % 2 = 0 := by rwa [evenSignificand_iff, Nat.div_eq_of_eq_mul_left hpos hjm] at hjeven
  have hpow : 2 ^ fmt.precision % 2 = 0 :=
    Nat.mod_eq_zero_of_dvd (dvd_pow_self 2 fmt.precision_pos.ne')
  have hnext : m + 1 < 2 ^ fmt.precision := by omega
  have hnextval : (m + 1) * stepAt fmt j = j + stepAt fmt j := by rw [Nat.succ_mul, ← hjm]
  have hle : (m + 1) * stepAt fmt j ≤ k := by
    have hdvd : stepAt fmt j ∣ k - j :=
      Nat.dvd_sub ((stepAt_dvd_stepAt hlt.le).trans (Dvd.intro_left n hkn.symm)) (Dvd.intro_left m hjm.symm)
    have hdist := Nat.le_of_dvd (Nat.sub_pos_of_lt hlt) hdvd
    omega
  have hne : (m + 1) * stepAt fmt j ≠ k := by
    intro heq
    have hstep : stepAt fmt k = stepAt fmt j :=
      stepAt_eq_of_lt hlt.le (heq ▸ Nat.mul_lt_mul_of_pos_right hnext hpos)
    rw [evenSignificand_iff, hstep, Nat.div_eq_of_eq_mul_left hpos heq.symm] at hkeven
    omega
  exact ⟨(m + 1) * stepAt fmt j, ⟨m + 1, _, hnext, rfl⟩, by omega, hle.lt_of_ne hne⟩

/-! ### The nearest value -/

/-- `k` units are the value of the precision to which `x` units round: no other is nearer, and one as near has the odd
significand. -/
def NearestUnits (fmt : FpFormat) (x : ℚ) (k : Nat) : Prop :=
  FitsPrecision fmt k ∧ ∀ v : Nat, FitsPrecision fmt v → v ≠ k →
    |(k : ℚ) - x| ≤ |(v : ℚ) - x| ∧ (|(k : ℚ) - x| = |(v : ℚ) - x| → EvenSignificand fmt k)

/-- A distance in units. -/
theorem abs_magnitude_sub (fmt : FpFormat) (k : Nat) (x : ℚ) :
    |magnitude fmt k - x| = |(k : ℚ) - x * 2 ^ fmt.unitExp| / 2 ^ fmt.unitExp := by
  have hpos : (0 : ℚ) < 2 ^ fmt.unitExp := by positivity
  rw [← abs_of_pos hpos, ← abs_div, abs_of_pos hpos, sub_div, mul_div_cancel_right₀ _ hpos.ne']
  rfl

/-- `IsRounded` in units. -/
theorem isRounded_iff {fmt : FpFormat} {neg : Bool} {x : ℚ} {r : Fp} :
    IsRounded fmt neg x r ↔
      if (2 ^ fmt.limitExp - 2 ^ (fmt.limitExp - fmt.precision - 1) : ℚ) ≤ x * 2 ^ fmt.unitExp then r = .inf neg
      else ∃ k, r = .fin neg k ∧ k < 2 ^ fmt.limitExp ∧ NearestUnits fmt (x * 2 ^ fmt.unitExp) k := by
  have hpos : (0 : ℚ) < 2 ^ fmt.unitExp := by positivity
  simp only [IsRounded, NearestUnits, abs_magnitude_sub, div_le_div_iff_of_pos_right hpos, div_left_inj' hpos.ne']

/-- Half way between two values of the precision there is a nearer one if both significands are even. -/
theorem not_tie_of_even {fmt : FpFormat} {x : ℚ} {j k : Nat} (hj : NearestUnits fmt x j) (hk : FitsPrecision fmt k)
    (hlt : j < k) (htie : |(j : ℚ) - x| = |(k : ℚ) - x|) (hkeven : EvenSignificand fmt k) : False := by
  obtain ⟨hjfits, hjnear⟩ := hj
  have hjeven := (hjnear k hk hlt.ne').2 htie
  obtain ⟨v, hv, hjv, hvk⟩ := exists_fits_between hjfits hk hlt hjeven hkeven
  have hlt' : (j : ℚ) < k := Nat.cast_lt.2 hlt
  have hjv' : (j : ℚ) < v := Nat.cast_lt.2 hjv
  have hvk' : (v : ℚ) < k := Nat.cast_lt.2 hvk
  have hmid : x - j = k - x := by
    rcases abs_eq_abs.1 htie with h | h <;> linarith
  have hnear : |(v : ℚ) - x| < |(j : ℚ) - x| := by
    rw [abs_sub_comm (j : ℚ), abs_of_pos (by linarith : (0 : ℚ) < x - j), abs_lt]
    constructor <;> linarith
  exact absurd (hjnear v hv hjv.ne').1 (not_le.2 hnear)

/-- There is only one nearest value: of two as near as each other both would have an even significand. -/
theorem NearestUnits.unique {fmt : FpFormat} {x : ℚ} {j k : Nat} (hj : NearestUnits fmt x j)
    (hk : NearestUnits fmt x k) : j = k := by
  by_contra hne
  obtain ⟨hjk, hjtie⟩ := hj.2 k hk.1 (Ne.symm hne)
  obtain ⟨hkj, hktie⟩ := hk.2 j hj.1 hne
  have htie := le_antisymm hjk hkj
  rcases Nat.lt_or_gt_of_ne hne with hlt | hlt
  · exact not_tie_of_even hj hk.1 hlt htie (hktie htie.symm)
  · exact not_tie_of_even hk hj.1 hlt htie.symm (hjtie htie)

/-- A distance from a quotient, as a whole number of parts. -/
theorem abs_sub_div (k num : Nat) {den : Nat} (hden : 0 < den) :
    |(k : ℚ) - num / den| = ((|(k : Int) * den - num| : Int) : ℚ) / den := by
  have hpos : (0 : ℚ) < den := Nat.cast_pos.2 hden
  push_cast
  rw [← abs_of_pos hpos, ← abs_div, abs_of_pos hpos, sub_div, mul_div_cancel_right₀ _ hpos.ne']

/-- Rounding gives the nearest value. -/
theorem nearestUnits_roundUnits (fmt : FpFormat) (num : Nat) {den : Nat} (hden : 0 < den) :
    NearestUnits fmt (num / den) (roundUnits fmt.precision num den) := by
  refine ⟨fitsPrecision_roundUnits fmt num den, ?_⟩
  rintro v ⟨m, e, hm, rfl⟩ hne
  obtain ⟨hle, htie⟩ := roundUnits_nearest fmt.precision_pos hden num e hm
  have hpos : (0 : ℚ) < den := Nat.cast_pos.2 hden
  rw [abs_sub_div _ _ hden, abs_sub_div _ _ hden, div_le_div_iff_of_pos_right hpos, div_left_inj' hpos.ne',
    Int.cast_le, Int.cast_inj]
  push_cast
  refine ⟨hle, fun heq => ?_⟩
  rw [roundUnits_eq]
  exact evenSignificand_of_even (keptUnits_le _ _ _) (roundToEven_even_of_tie (htie heq hne))

/-- Rounding in a format gives the rounded value of what it is given, in units. -/
theorem isRounded_roundFp (fmt : FpFormat) (neg : Bool) {num den : Nat} {x : ℚ} (hden : 0 < den)
    (hx : x * 2 ^ fmt.unitExp = num / den) : IsRounded fmt neg x (roundFp fmt neg num den) := by
  have hpos : (0 : ℚ) < den := Nat.cast_pos.2 hden
  have hstep : 2 ^ (fmt.limitExp - fmt.precision - 1) ≤ 2 ^ fmt.limitExp :=
    Nat.pow_le_pow_right two_pos ((Nat.sub_le _ _).trans (Nat.sub_le _ _))
  have hlimit : (2 ^ fmt.limitExp - 2 ^ (fmt.limitExp - fmt.precision - 1) : ℚ) ≤ num / den ↔
      (2 ^ fmt.limitExp - 2 ^ (fmt.limitExp - fmt.precision - 1)) * den ≤ num := by
    rw [le_div_iff₀ hpos, ← Nat.cast_le (α := ℚ), Nat.cast_mul, Nat.cast_sub hstep]
    push_cast
    rfl
  rw [isRounded_iff, hx, roundFp_eq_ite fmt neg num hden]
  by_cases h : (2 ^ fmt.limitExp - 2 ^ (fmt.limitExp - fmt.precision - 1)) * den ≤ num
  · rw [if_pos (hlimit.2 h), if_pos h]
  · rw [if_neg (mt hlimit.1 h), if_neg h]
    refine ⟨_, rfl, ?_, nearestUnits_roundUnits fmt num hden⟩
    exact (roundUnits_lt_two_pow_iff fmt.precision_pos hden fmt.precision_lt_limitExp num).2 (Nat.lt_of_not_le h)

/-- There is only one rounded value. -/
theorem IsRounded.unique {fmt : FpFormat} {neg : Bool} {x : ℚ} {r r' : Fp} (h : IsRounded fmt neg x r)
    (h' : IsRounded fmt neg x r') : r = r' := by
  rw [isRounded_iff] at h h'
  split_ifs at h h' with hlimit
  · exact h.trans h'.symm
  · obtain ⟨j, rfl, -, hj⟩ := h
    obtain ⟨k, rfl, -, hk⟩ := h'
    rw [hj.unique hk]

end Sys2Proof.Machine
end

section
/-! PROOFS. The statement on the arithmetic of R9. -/

namespace Sys2Proof.Machine

/-! ### Finite values -/

theorem isRounded_fmul (fmt : FpFormat) (s t : Bool) (j k : Nat) :
    IsRounded fmt (s != t) (magnitude fmt j * magnitude fmt k) (fmul fmt (.fin s j) (.fin t k)) := by
  rw [fmul_fin]
  refine isRounded_roundFp fmt _ (Nat.two_pow_pos _) ?_
  simp only [magnitude]
  push_cast
  field_simp

theorem isRounded_fdiv (fmt : FpFormat) (s t : Bool) (j : Nat) {k : Nat} (hk : 0 < k) :
    IsRounded fmt (s != t) (magnitude fmt j / magnitude fmt k) (fdiv fmt (.fin s j) (.fin t k)) := by
  have hk' : (k : ℚ) ≠ 0 := Nat.cast_ne_zero.2 hk.ne'
  rw [fdiv_fin fmt s t j hk]
  refine isRounded_roundFp fmt _ hk ?_
  simp only [magnitude]
  push_cast
  field_simp

/-! ### Special values -/

theorem roundFp_ne_nan (fmt : FpFormat) (neg : Bool) (num den : Nat) : roundFp fmt neg num den ≠ .nan := by
  unfold roundFp
  dsimp only
  split_ifs <;> exact nofun

theorem fmul_eq_nan_iff (fmt : FpFormat) (x y : Fp) :
    fmul fmt x y = .nan ↔
      x = .nan ∨ y = .nan ∨ (x.isInf = true ∧ ∃ t, y = .fin t 0) ∨ (y.isInf = true ∧ ∃ s, x = .fin s 0) := by
  match x, y with
  | .nan, y => cases y <;> simp [fmul]
  | .inf s, .nan | .fin s j, .nan => simp [fmul]
  | .inf s, .inf t => simp [fmul, Fp.isInf]
  | .inf s, .fin t k | .fin t k, .inf s =>
    simp [fmul, Fp.isInf]
  | .fin s j, .fin t k => simp [fmul_fin, roundFp_ne_nan, Fp.isInf]

theorem fdiv_eq_nan_iff (fmt : FpFormat) (x y : Fp) :
    fdiv fmt x y = .nan ↔
      x = .nan ∨ y = .nan ∨ (x.isInf = true ∧ y.isInf = true) ∨ ((∃ s, x = .fin s 0) ∧ ∃ t, y = .fin t 0) := by
  match x, y with
  | .nan, y => cases y <;> simp [fdiv]
  | .inf s, .nan | .fin s j, .nan => simp [fdiv]
  | .inf s, .inf t | .inf s, .fin t k | .fin t k, .inf s => simp [fdiv, Fp.isInf]
  | .fin s j, .fin t k =>
    rcases Nat.eq_zero_or_pos k with rfl | hk
    · simp [fdiv, Fp.isInf]
    · simp [fdiv_fin fmt s t j hk, roundFp_ne_nan, Fp.isInf, hk.ne']

/-- Settles O57: rounding reaches the rounded value of the exact result, there is only one, and the special values are
read off the definitions. -/
theorem arithmeticIsTheRoundedExactResult : Obligations.ArithmeticIsTheRoundedExactResult := by
  refine ⟨isRounded_fmul, fun fmt s t j k hk => isRounded_fdiv fmt s t j (Nat.pos_of_ne_zero hk),
    fun fmt neg x r r' h h' => h.unique h', fmul_eq_nan_iff, fdiv_eq_nan_iff, fun fmt s t k => ?special⟩
  case special =>
    refine ⟨rfl, fdiv_inf_fin fmt s t k, rfl, fun hk => ⟨fmul_inf_fin fmt s t (Nat.pos_of_ne_zero hk), ?_, ?_⟩⟩
    · exact if_neg hk
    · exact if_neg hk

end Sys2Proof.Machine
end

section
/-! SUPPORT. The fields of a binary32 pattern, and that reading and encoding are inverse to each other (spec 00_scope.md
R9). -/

namespace Sys2Proof

/-! ### The fields of a pattern -/

/-- The pattern with this sign, exponent field and fraction field. -/
def patternOf (neg : Bool) (e f : Nat) : Word := BitVec.ofNat 32 (neg.toNat * 2 ^ 31 + e * 2 ^ 23 + f)

theorem patternOf_toNat {neg : Bool} {e f : Nat} (he : e < 2 ^ 8) (hf : f < 2 ^ 23) :
    (patternOf neg e f).toNat = neg.toNat * 2 ^ 31 + e * 2 ^ 23 + f := by
  have hneg : neg.toNat ≤ 1 := Bool.toNat_le neg
  rw [patternOf, BitVec.toNat_ofNat]
  omega

/-- Bit 31 as a number. -/
theorem toNat_getLsbD_31 (bits : Word) : (bits.getLsbD 31).toNat = bits.toNat / 2 ^ 31 := by
  have hlt := bits.isLt
  rw [BitVec.getLsbD, Nat.toNat_testBit]
  omega

theorem getLsbD_31_patternOf {neg : Bool} {e f : Nat} (he : e < 2 ^ 8) (hf : f < 2 ^ 23) :
    (patternOf neg e f).getLsbD 31 = neg := by
  have h : ((patternOf neg e f).getLsbD 31).toNat = neg.toNat := by
    rw [toNat_getLsbD_31, patternOf_toNat he hf]
    omega
  cases neg <;> simpa using h

theorem exponent_patternOf {neg : Bool} {e f : Nat} (he : e < 2 ^ 8) (hf : f < 2 ^ 23) :
    ((patternOf neg e f).extractLsb' 23 8).toNat = e := by
  rw [BitVec.extractLsb'_toNat, patternOf_toNat he hf, Nat.shiftRight_eq_div_pow]
  omega

theorem fraction_patternOf {neg : Bool} {e f : Nat} (he : e < 2 ^ 8) (hf : f < 2 ^ 23) :
    ((patternOf neg e f).extractLsb' 0 23).toNat = f := by
  rw [BitVec.extractLsb'_toNat, patternOf_toNat he hf, Nat.shiftRight_eq_div_pow]
  omega

/-- Every pattern is made of its fields. -/
theorem exists_patternOf (bits : Word) : ∃ neg e f, e < 2 ^ 8 ∧ f < 2 ^ 23 ∧ bits = patternOf neg e f := by
  refine ⟨bits.getLsbD 31, (bits.extractLsb' 23 8).toNat, (bits.extractLsb' 0 23).toNat, BitVec.isLt _, BitVec.isLt _,
    BitVec.eq_of_toNat_eq ?_⟩
  rw [patternOf_toNat (BitVec.isLt _) (BitVec.isLt _), toNat_getLsbD_31, BitVec.extractLsb'_toNat,
    BitVec.extractLsb'_toNat, Nat.shiftRight_eq_div_pow, Nat.shiftRight_eq_div_pow]
  have hlt := bits.isLt
  omega

/-! ### Reading a pattern -/

theorem f32_patternOf {neg : Bool} {e f : Nat} (he : e < 2 ^ 8) (hf : f < 2 ^ 23) :
    f32 (patternOf neg e f) =
      if e = 255 then (if f = 0 then .inf neg else .nan)
      else if e = 0 then .fin neg f
      else .fin neg ((2 ^ 23 + f) * 2 ^ (e - 1)) := by
  simp only [f32, getLsbD_31_patternOf he hf, exponent_patternOf he hf, fraction_patternOf he hf]

/-! ### Encoding a value -/

theorem encodeF32_inf (neg : Bool) : encodeF32 (.inf neg) = patternOf neg 255 0 := by
  rw [encodeF32, patternOf, Nat.add_zero]

/-- A subnormal magnitude is its own fraction field. -/
theorem encodeF32_subnormal (neg : Bool) {k : Nat} (hk : k < 2 ^ 23) : encodeF32 (.fin neg k) = patternOf neg 0 k := by
  rw [encodeF32, if_pos hk, patternOf, Nat.zero_mul, Nat.add_zero]

theorem log2_normal {q : Nat} (hlo : 2 ^ 23 ≤ q) (hhi : q < 2 ^ 24) (e : Nat) : (q * 2 ^ e).log2 = 23 + e := by
  have hpos := Nat.two_pow_pos e
  refine (Nat.log2_eq_iff (Nat.mul_ne_zero (by omega) hpos.ne')).2 ⟨?_, ?_⟩
  · rw [pow_add]; exact Nat.mul_le_mul_right _ hlo
  · rw [show 23 + e + 1 = 24 + e by omega, pow_add]; exact Nat.mul_lt_mul_of_pos_right hhi hpos

/-- A normal magnitude has its significand without the leading digit as its fraction field. -/
theorem encodeF32_normal (neg : Bool) {q : Nat} (hlo : 2 ^ 23 ≤ q) (hhi : q < 2 ^ 24) (e : Nat) :
    encodeF32 (.fin neg (q * 2 ^ e)) = patternOf neg (e + 1) (q - 2 ^ 23) := by
  have hpos := Nat.two_pow_pos e
  have hbig : ¬q * 2 ^ e < 2 ^ 23 := Nat.not_lt.2 (hlo.trans (Nat.le_mul_of_pos_right q hpos))
  rw [encodeF32, if_neg hbig, log2_normal hlo hhi, Nat.add_sub_cancel_left]
  dsimp only
  rw [Nat.mul_div_cancel _ hpos, patternOf]

/-- Encoding inverts reading, but for the NaN patterns, which all read as one. -/
theorem encodeF32_f32 {bits : Word} (h : (f32 bits).isNaN = false) : encodeF32 (f32 bits) = bits := by
  obtain ⟨neg, e, f, he, hf, rfl⟩ := exists_patternOf bits
  rw [f32_patternOf he hf] at h ⊢
  split_ifs at h ⊢ with hmax hzero hsub
  · rw [encodeF32_inf, hmax, hzero]
  · cases h
  · rw [encodeF32_subnormal neg hf, hsub]
  · rw [encodeF32_normal neg (by omega) (by omega), Nat.add_sub_cancel_left, Nat.sub_add_cancel (by omega)]

theorem f32_encodeF32_subnormal (neg : Bool) {k : Nat} (hk : k < 2 ^ 23) : f32 (encodeF32 (.fin neg k)) = .fin neg k := by
  rw [encodeF32_subnormal neg hk, f32_patternOf (by decide) hk, if_neg (by decide), if_pos rfl]

theorem f32_encodeF32_normal (neg : Bool) {q e : Nat} (hlo : 2 ^ 23 ≤ q) (hhi : q < 2 ^ 24) (he : e < 254) :
    f32 (encodeF32 (.fin neg (q * 2 ^ e))) = .fin neg (q * 2 ^ e) := by
  rw [encodeF32_normal neg hlo hhi, f32_patternOf (by omega) (by omega), if_neg (by omega), if_neg (by omega),
    Nat.add_sub_cancel, Nat.add_sub_cancel' hlo]

end Sys2Proof

namespace Sys2Proof.Machine

/-- A value of binary32 that is not subnormal has a significand of 24 digits. -/
theorem FitsPrecision.exists_normal {k : Nat} (h : FitsPrecision .binary32 k) (hk : 2 ^ 23 ≤ k) :
    ∃ q e, 2 ^ 23 ≤ q ∧ q < 2 ^ 24 ∧ k = q * 2 ^ e := by
  obtain ⟨q, hq, hkq⟩ := h.exists_steps
  refine ⟨q, bitLength k - 24, ?_, hq, hkq⟩
  have hbits := lt_bitLength_of_two_pow_le hk
  have hlead : 2 ^ (23 + (bitLength k - 24)) ≤ k := two_pow_le_of_lt_bitLength (by omega)
  rw [pow_add] at hlead
  exact Nat.le_of_mul_le_mul_right (hlead.trans_eq hkq) (Nat.two_pow_pos _)

/-- Reading inverts encoding, for every value of binary32. -/
theorem f32_encodeF32 (neg : Bool) {k : Nat} (hk : k < 2 ^ 277) (hfits : FitsPrecision .binary32 k) :
    f32 (encodeF32 (.fin neg k)) = .fin neg k := by
  rcases Nat.lt_or_ge k (2 ^ 23) with hsub | hnormal
  · exact f32_encodeF32_subnormal neg hsub
  · obtain ⟨q, e, hlo, hhi, rfl⟩ := hfits.exists_normal hnormal
    refine f32_encodeF32_normal neg hlo hhi ?_
    have hlead : 2 ^ (23 + e) ≤ q * 2 ^ e := by
      rw [pow_add]; exact Nat.mul_le_mul_right _ hlo
    have hexp : 23 + e < 277 := (pow_lt_pow_iff_right₀ one_lt_two).1 (hlead.trans_lt hk)
    omega

end Sys2Proof.Machine
end

section
/-! SUPPORT. How a text is cut into lines and a line into words, what the digits of a numeral read as, and what a mnemonic
with one operand assembles to (spec 30_encoding.md R80, R81). -/

namespace Sys2Proof.Machine

/-! ### Cutting a text -/

theorem splitAtChars_ne_nil (sep : Char → Bool) (cs : List Char) : splitAtChars sep cs ≠ [] := by
  cases cs with
  | nil => exact nofun
  | cons c cs =>
    rw [splitAtChars]
    split <;> split <;> exact nofun

theorem splitAtChars_cons_of_sep {sep : Char → Bool} {c : Char} (h : sep c = true) (cs : List Char) :
    splitAtChars sep (c :: cs) = [] :: splitAtChars sep cs := by
  rw [splitAtChars]
  cases hs : splitAtChars sep cs with
  | nil => exact absurd hs (splitAtChars_ne_nil sep cs)
  | cons w ws => simp only [h, if_true]

/-- What comes before the first separator is the first piece. -/
theorem splitAtChars_append_of_sep {sep : Char → Bool} {cs : List Char} {c : Char} (hcs : ∀ d ∈ cs, sep d = false)
    (h : sep c = true) (ds : List Char) :
    splitAtChars sep (cs ++ c :: ds) = cs :: splitAtChars sep ds := by
  induction cs with
  | nil => exact splitAtChars_cons_of_sep h ds
  | cons d cs ih =>
    obtain ⟨hd, hcs⟩ := List.forall_mem_cons.1 hcs
    rw [List.cons_append, splitAtChars, ih hcs]
    simp only [hd, Bool.false_eq_true, if_false]

theorem splitAtChars_of_no_sep {sep : Char → Bool} {cs : List Char} (hcs : ∀ d ∈ cs, sep d = false) :
    splitAtChars sep cs = [cs] := by
  induction cs with
  | nil => rfl
  | cons d cs ih =>
    obtain ⟨hd, hcs⟩ := List.forall_mem_cons.1 hcs
    rw [splitAtChars, ih hcs]
    simp only [hd, Bool.false_eq_true, if_false]

/-- Lines joined by a separator that none of them holds are cut again at it. -/
theorem splitAtChars_intercalate {sep : Char → Bool} {c : Char} (hc : sep c = true) (l : List Char)
    (ls : List (List Char)) (hls : ∀ x ∈ l :: ls, ∀ d ∈ x, sep d = false) :
    splitAtChars sep ([c].intercalate (l :: ls)) = l :: ls := by
  induction ls generalizing l with
  | nil => simpa using splitAtChars_of_no_sep (hls l List.mem_cons_self)
  | cons m ls ih =>
    obtain ⟨hl, hls⟩ := List.forall_mem_cons.1 hls
    rw [List.intercalate_cons_cons, List.append_assoc, List.singleton_append, splitAtChars_append_of_sep hl hc, ih m hls]

/-! ### Words of a line -/

/-- A character that ends neither a word nor what of the line is read. -/
def isPlain (c : Char) : Bool := !c.isWhitespace && c != ';'

theorem isPlain_iff {c : Char} : isPlain c = true ↔ c.isWhitespace = false ∧ c ≠ ';' := by
  simp [isPlain]

/-- A word: not empty, and of plain characters. -/
structure IsWord (cs : List Char) : Prop where
  ne_nil : cs ≠ []
  plain : ∀ c ∈ cs, isPlain c = true

theorem isWord_of_all {cs : List Char} (h : (!cs.isEmpty && cs.all isPlain) = true) : IsWord cs := by
  obtain ⟨hne, hall⟩ := Bool.and_eq_true_iff.1 h
  exact ⟨by simpa using hne, List.all_eq_true.1 hall⟩

theorem IsWord.append {cs ds : List Char} (hcs : IsWord cs) (hds : ∀ c ∈ ds, isPlain c = true) : IsWord (cs ++ ds) :=
  ⟨fun h => hcs.ne_nil (List.append_eq_nil_iff.1 h).1, List.forall_mem_append.2 ⟨hcs.plain, hds⟩⟩

theorem IsWord.no_space {cs : List Char} (h : IsWord cs) : ∀ c ∈ cs, c.isWhitespace = false :=
  fun c hc => (isPlain_iff.1 (h.plain c hc)).1

theorem IsWord.no_comment {cs : List Char} (h : IsWord cs) : ∀ c ∈ cs, c ≠ ';' :=
  fun c hc => (isPlain_iff.1 (h.plain c hc)).2

/-- A name and one operand are the two words of their line. -/
theorem lineWords_name_operand {name operand : List Char} (hname : IsWord name) (hoperand : IsWord operand) :
    lineWords (name ++ ' ' :: operand) = [name, operand] := by
  have hcomment : (name ++ ' ' :: operand).takeWhile (· != ';') = name ++ ' ' :: operand := by
    rw [List.takeWhile_eq_self_iff]
    intro c hc
    rw [bne_iff_ne]
    rcases List.mem_append.1 hc with hc | hc
    · exact hname.no_comment c hc
    · rcases List.mem_cons.1 hc with rfl | hc
      · decide
      · exact hoperand.no_comment c hc
  rw [lineWords, hcomment, splitAtChars_append_of_sep hname.no_space (by decide),
    splitAtChars_of_no_sep hoperand.no_space]
  simp [hname.ne_nil, hoperand.ne_nil]

theorem assembleLine_name_operand {name operand : List Char} {op : AsmOp} (hname : IsWord name)
    (hop : asmOp name = some op) (hoperand : IsWord operand) :
    assembleLine (name ++ ' ' :: operand) = asmApply op [operand] := by
  simp only [assembleLine, lineWords_name_operand hname hoperand, hop]

/-- A comment is dropped, whatever the line holds before it. -/
theorem lineWords_append_comment (line comment : List Char) : lineWords (line ++ ';' :: comment) = lineWords line := by
  have h : (line ++ ';' :: comment).takeWhile (· != ';') = line.takeWhile (· != ';') := by
    induction line with
    | nil => rfl
    | cons c line ih => rw [List.cons_append, List.takeWhile_cons, List.takeWhile_cons, ih]
  rw [lineWords, lineWords, h]

/-! ### Digits -/

/-- A character that reads as a digit is below the base 16, and neither white space nor the start of a comment. -/
theorem hexDigit_eq_some {c : Char} {d : Nat} (h : hexDigit c = some d) :
    d < 16 ∧ isPlain c = true := by
  rw [isPlain_iff]
  refine ⟨?_, ?_, ?_⟩
  · unfold hexDigit at h
    dsimp only at h
    split_ifs at h <;> cases h <;> omega
  · by_contra hspace
    have hc : c = ' ' ∨ c = '\t' ∨ c = '\r' ∨ c = '\n' := by
      rw [Bool.not_eq_false] at hspace
      simpa [Char.isWhitespace, or_assoc] using hspace
    rcases hc with rfl | rfl | rfl | rfl <;> cases h
  · rintro rfl
    cases h

theorem map_hexDigit_plain {cs : List Char} {ds : List Nat} (h : cs.map hexDigit = ds.map some) :
    (∀ d ∈ ds, d < 16) ∧ ∀ c ∈ cs, isPlain c = true := by
  constructor
  · intro d hd
    obtain ⟨c, -, hc⟩ := List.mem_map.1 (h ▸ List.mem_map_of_mem hd : some d ∈ cs.map hexDigit)
    exact (hexDigit_eq_some hc).1
  · intro c hc
    obtain ⟨d, -, hd⟩ := List.mem_map.1 (h ▸ List.mem_map_of_mem hc : hexDigit c ∈ ds.map some)
    exact (hexDigit_eq_some hd.symm).2

/-- Printed digits read as themselves. -/
theorem map_hexDigit_digitChar {ds : List Nat} (hd : ∀ d ∈ ds, d < 10) :
    (ds.map Nat.digitChar).map hexDigit = ds.map some := by
  rw [List.map_map]
  exact List.map_congr_left fun d h => hexDigit_digitChar d (by have := hd d h; omega)

theorem hexText_plain (n w : Nat) : ∀ c ∈ hexText n w, isPlain c = true := by
  intro c hc
  obtain ⟨d, hd, rfl⟩ := hexText_mem hc
  obtain ⟨hspace, hcomment, -⟩ := digitChar_plain d hd
  exact isPlain_iff.2 ⟨hspace, hcomment⟩

theorem hexText_no_newline (n w : Nat) : ∀ c ∈ hexText n w, (c == '\n') = false := by
  intro c hc
  obtain ⟨d, hd, rfl⟩ := hexText_mem hc
  obtain ⟨-, -, hnewline⟩ := digitChar_plain d hd
  exact beq_false_of_ne hnewline

/-! ### Numerals -/

theorem isWord_decimal {ds : List Nat} (hne : ds ≠ []) (hd : ∀ d ∈ ds, d < 10) : IsWord (ds.map Nat.digitChar) :=
  ⟨by simpa using hne, (map_hexDigit_plain (map_hexDigit_digitChar hd)).2⟩

theorem isWord_hex {cs : List Char} (h : ∀ c ∈ cs, isPlain c = true) : IsWord ('0' :: 'x' :: cs) :=
  (isWord_of_all rfl : IsWord ['0', 'x']).append h

theorem digitsValue_decimal {ds : List Nat} (hd : ∀ d ∈ ds, d < 10) :
    digitsValue 10 (ds.map Nat.digitChar) 0 = some (Nat.ofDigits 10 ds.reverse) := by
  rw [digitsValue_of_digits 0 (map_hexDigit_digitChar hd) hd, Nat.zero_mul, Nat.zero_add]

theorem digitsValue_hex {cs : List Char} {ds : List Nat} (h : cs.map hexDigit = ds.map some) :
    digitsValue 16 cs 0 = some (Nat.ofDigits 16 ds.reverse) := by
  rw [digitsValue_of_digits 0 h (map_hexDigit_plain h).1, Nat.zero_mul, Nat.zero_add]

/-- Decimal digits read as the number they spell; a second digit is no `x`. -/
theorem asmNat_decimal {ds : List Nat} (hne : ds ≠ []) (hd : ∀ d ∈ ds, d < 10) :
    asmNat (ds.map Nat.digitChar) = some (Nat.ofDigits 10 ds.reverse) := by
  rw [← digitsValue_decimal hd]
  unfold asmNat
  split
  case h_1 h => exact absurd (List.map_eq_nil_iff.1 h) hne
  case h_2 c cs h =>
    have hx : hexDigit 'x' ∈ ds.map some := by
      rw [← map_hexDigit_digitChar hd, h]
      simp
    obtain ⟨d, -, hd⟩ := List.mem_map.1 hx
    cases hd
  case h_3 h => rw [h]

theorem asmNat_hex {cs : List Char} {ds : List Nat} (hne : cs ≠ []) (h : cs.map hexDigit = ds.map some) :
    asmNat ('0' :: 'x' :: cs) = some (Nat.ofDigits 16 ds.reverse) := by
  cases cs with
  | nil => exact absurd rfl hne
  | cons c cs => exact digitsValue_hex h

/-! ### Operations with a numeral -/

theorem asmApply_ticks {x : List Char} {n : Nat} (h : asmNat x = some n) :
    asmApply .ticks [x] = .ok (List.replicate n ⟨.timer, 0x0000000000000080#64⟩) := by
  have hevent : eventOf .tick = ⟨.timer, 0x0000000000000080#64⟩ := by decide
  simp only [asmApply, h, Option.map_some, Option.elim_some, expandTicks, hevent]

theorem asmApply_timedbeep {x : List Char} {n : Nat} (h : asmNat x = some n) :
    asmApply .timedbeep [x] =
      if n < 2 ^ 32 then .ok [⟨.host, encode (.timedbeep (BitVec.ofNat 32 n))⟩] else .error .badOperand := by
  simp only [asmApply, asmDuration, h, Option.bind_some]
  split_ifs <;> rfl

/-! ### Printed operands -/

/-- The eight digits of a word read as the word. -/
theorem digitsValue_hexText_word (w : Word) : digitsValue 16 (hexText 8 w.toNat) 0 = some w.toNat := by
  rw [digitsValue_hexText, Nat.zero_mul, Nat.zero_add, Nat.mod_eq_of_lt (by simpa using w.isLt)]

theorem asmFloat_pattern (cs : List Char) :
    asmFloat ('#' :: '0' :: 'x' :: cs) =
      if cs.length = 8 then (digitsValue 16 cs 0).map (BitVec.ofNat 32) else none := rfl

theorem asmFloat_hexText (bits : Word) : asmFloat ('#' :: '0' :: 'x' :: hexText 8 bits.toNat) = some bits := by
  rw [asmFloat_pattern, if_pos (hexText_length _ _), digitsValue_hexText_word, Option.map_some, BitVec.ofNat_toNat,
    BitVec.setWidth_eq]

theorem asmNat_hexText (d : Word) : asmNat ('0' :: 'x' :: hexText 8 d.toNat) = some d.toNat := by
  have hvalue := digitsValue_hexText_word d
  have hlength := hexText_length 8 d.toNat
  cases hcs : hexText 8 d.toNat with
  | nil => rw [hcs] at hlength; cases hlength
  | cons c cs => rw [hcs] at hvalue; exact hvalue

theorem isWord_pattern (n w : Nat) : IsWord ('#' :: '0' :: 'x' :: hexText n w) :=
  (isWord_of_all rfl : IsWord ['#', '0', 'x']).append (hexText_plain n w)

/-- The line of an instruction assembles to its delivery. -/
theorem assembleLine_lineOf (i : Instr) : assembleLine (lineOf i) = .ok [eventOf i] := by
  cases i with
  | settone bits =>
    have h := assembleLine_name_operand (name := "SETTONE".toList) (op := .settone) (isWord_of_all rfl) rfl
      (isWord_pattern 8 bits.toNat)
    rw [asmApply, asmFloat_hexText] at h
    exact h
  | setbeep bits =>
    have h := assembleLine_name_operand (name := "SETBEEP".toList) (op := .setbeep) (isWord_of_all rfl) rfl
      (isWord_pattern 8 bits.toNat)
    rw [asmApply, asmFloat_hexText] at h
    exact h
  | timedbeep d =>
    have h := assembleLine_name_operand (name := "TIMEDBEEP".toList) (op := .timedbeep) (isWord_of_all rfl) rfl
      (isWord_hex (hexText_plain 8 d.toNat))
    rw [asmApply_timedbeep (asmNat_hexText d), if_pos d.isLt, BitVec.ofNat_toNat, BitVec.setWidth_eq] at h
    exact h
  | init | shutdown | toneon | toneoff | beepon | beepoff | tick => rfl

theorem no_newline_of_all {cs : List Char} (h : cs.all (· != '\n') = true) : ∀ c ∈ cs, (c == '\n') = false :=
  fun c hc => by simpa using List.all_eq_true.1 h c hc

theorem lineOf_no_newline (i : Instr) : ∀ c ∈ lineOf i, (c == '\n') = false := by
  have hprinted {name : List Char} (w : Nat) (hname : ∀ c ∈ name, (c == '\n') = false) :
      ∀ c ∈ name ++ hexText 8 w, (c == '\n') = false :=
    List.forall_mem_append.2 ⟨hname, hexText_no_newline 8 w⟩
  cases i with
  | settone w | setbeep w | timedbeep w => exact hprinted w.toNat (no_newline_of_all rfl)
  | init | shutdown | toneon | toneoff | beepon | beepoff | tick => exact no_newline_of_all rfl

theorem assembleLines_map_lineOf (is : List Instr) : assembleLines (is.map lineOf) = .ok (trace is) := by
  induction is with
  | nil => rfl
  | cons i is ih => simp only [List.map_cons, assembleLines, assembleLine_lineOf, ih, trace, List.singleton_append]

/-- The text of a list of instructions assembles to their deliveries; the text of none is one empty line. -/
theorem assemble_textOf (is : List Instr) : assemble (textOf is) = .ok (trace is) := by
  cases is with
  | nil => rfl
  | cons i is =>
    have hlines : ∀ x ∈ (i :: is).map lineOf, ∀ c ∈ x, (c == '\n') = false :=
      List.forall_mem_map.2 fun j _ => lineOf_no_newline j
    rw [assemble, textOf, List.map_cons, splitAtChars_intercalate (by decide) _ _ hlines, ← List.map_cons,
      assembleLines_map_lineOf]

/-! ### Decimal numbers -/

theorem asmFloat_of_digit {c : Char} (cs : List Char) (hpattern : c ≠ '#') (hminus : c ≠ '-') :
    asmFloat (c :: cs) = asmDecimal false (c :: cs) := by
  unfold asmFloat
  split
  case h_1 h => exact absurd (List.cons.inj h).1 hpattern
  case h_2 h => exact absurd (List.cons.inj h).1 hminus
  case h_3 => rfl

theorem asmFloat_minus (cs : List Char) : asmFloat ('-' :: cs) = asmDecimal true cs := rfl

/-- A printed digit is neither a point nor a sign, and begins no pattern. -/
theorem digitChar_no_mark :
    ∀ d < 10, Nat.digitChar d ≠ '.' ∧ Nat.digitChar d ≠ '#' ∧ Nat.digitChar d ≠ '-' := by decide

/-- A number without a sign that begins with a digit is decimal. -/
theorem asmFloat_digits {ds : List Nat} (cs : List Char) (hne : ds ≠ []) (hd : ∀ d ∈ ds, d < 10) :
    asmFloat (ds.map Nat.digitChar ++ cs) = asmDecimal false (ds.map Nat.digitChar ++ cs) := by
  cases ds with
  | nil => exact absurd rfl hne
  | cons d ds =>
    obtain ⟨-, hpattern, hminus⟩ := digitChar_no_mark d (hd d List.mem_cons_self)
    exact asmFloat_of_digit _ hpattern hminus

/-- The value of a decimal number by its parts before and after the point, rounded. -/
theorem asmDecimal_of_parts {neg : Bool} {cs whole fraction : List Char} {n : Nat} (hne : whole ≠ [])
    (hwhole : cs.takeWhile (· != '.') = whole) (hfraction : (cs.dropWhile (· != '.')).drop 1 = fraction)
    (hvalue : digitsValue 10 (whole ++ fraction) 0 = some n) :
    asmDecimal neg cs =
      some (encodeF32 (roundFp .binary32 neg (n * 2 ^ FpFormat.binary32.unitExp) (10 ^ fraction.length))) := by
  simp [asmDecimal, hwhole, hfraction, hvalue, hne]

theorem isRounded_decimal (neg : Bool) (n k : Nat) :
    IsRounded .binary32 neg (n / 10 ^ k) (roundFp .binary32 neg (n * 2 ^ FpFormat.binary32.unitExp) (10 ^ k)) := by
  refine isRounded_roundFp .binary32 neg (Nat.pow_pos (by decide)) ?_
  push_cast
  ring

theorem digits_no_point {ds : List Nat} (hd : ∀ d ∈ ds, d < 10) : ∀ c ∈ ds.map Nat.digitChar, (c != '.') = true :=
  List.forall_mem_map.2 fun d h => bne_iff_ne.2 (digitChar_no_mark d (hd d h)).1

/-- The number digits spell is the same in the rationals. -/
theorem cast_ofDigits_ten (ds : List Nat) : ((Nat.ofDigits 10 ds : Nat) : ℚ) = Nat.ofDigits 10 ds := by
  rw [Nat.coe_ofDigits, Nat.cast_ofNat]

/-- Digits, a point, and digits or none give the encoding of their value rounded. -/
theorem asmDecimal_point (neg : Bool) {ds fs : List Nat} (hne : ds ≠ []) (hd : ∀ d ∈ ds ++ fs, d < 10) :
    ∃ r, IsRounded .binary32 neg (Nat.ofDigits 10 (ds ++ fs).reverse / 10 ^ fs.length) r ∧
      asmDecimal neg (ds.map Nat.digitChar ++ '.' :: fs.map Nat.digitChar) = some (encodeF32 r) := by
  obtain ⟨hds, -⟩ := List.forall_mem_append.1 hd
  have htake : (ds.map Nat.digitChar ++ '.' :: fs.map Nat.digitChar).takeWhile (· != '.') = ds.map Nat.digitChar := by
    rw [List.takeWhile_append_of_pos (digits_no_point hds), List.takeWhile_cons_of_neg (by decide), List.append_nil]
  have hdrop : ((ds.map Nat.digitChar ++ '.' :: fs.map Nat.digitChar).dropWhile (· != '.')).drop 1 =
      fs.map Nat.digitChar := by
    rw [List.dropWhile_append_of_pos (digits_no_point hds), List.dropWhile_cons_of_neg (by decide), List.drop_one,
      List.tail_cons]
  have hvalue : digitsValue 10 (ds.map Nat.digitChar ++ fs.map Nat.digitChar) 0 =
      some (Nat.ofDigits 10 (ds ++ fs).reverse) := by
    rw [← List.map_append]
    exact digitsValue_decimal hd
  rw [← cast_ofDigits_ten]
  refine ⟨_, isRounded_decimal neg _ _, ?_⟩
  rw [asmDecimal_of_parts (by simpa using hne) htake hdrop hvalue, List.length_map]

/-- Digits without a point give the encoding of their value rounded. -/
theorem asmDecimal_whole {ds : List Nat} (neg : Bool) (hne : ds ≠ []) (hd : ∀ d ∈ ds, d < 10) :
    ∃ r, IsRounded .binary32 neg (Nat.ofDigits 10 ds.reverse) r ∧
      asmDecimal neg (ds.map Nat.digitChar) = some (encodeF32 r) := by
  have hrounded := isRounded_decimal neg (Nat.ofDigits 10 ds.reverse) 0
  rw [pow_zero (M := ℚ), div_one, cast_ofDigits_ten] at hrounded
  have htake := List.takeWhile_eq_self_iff.2 (digits_no_point hd)
  have hdrop : ((ds.map Nat.digitChar).dropWhile (· != '.')).drop 1 = [] := by
    rw [List.dropWhile_eq_nil_iff.2 (digits_no_point hd), List.drop_nil]
  have hvalue : digitsValue 10 (ds.map Nat.digitChar ++ []) 0 = some (Nat.ofDigits 10 ds.reverse) := by
    rw [List.append_nil, digitsValue_decimal hd]
  refine ⟨_, hrounded, ?_⟩
  rw [asmDecimal_of_parts (by simpa using hne) htake hdrop hvalue, List.length_nil]

end Sys2Proof.Machine
end

section
/-! PROOFS. The statements on the assembler and its literals (30_encoding.md section 5). -/

namespace Sys2Proof.Machine

/-- Settles O55, by evaluating the text. -/
theorem assembledProgramHasItsWords : Obligations.AssembledProgramHasItsWords := by
  unfold Obligations.AssembledProgramHasItsWords
  decide +kernel

/-- Settles O56: the two words of the line, and what the numeral reads as. -/
theorem ticksStandForTickEvents : Obligations.TicksStandForTickEvents := by
  have hline {x : List Char} {n : Nat} (hx : IsWord x) (hn : asmNat x = some n) :
      assembleLine ("TICKS".toList ++ ' ' :: x) = .ok (List.replicate n ⟨.timer, 0x0000000000000080#64⟩) := by
    rw [assembleLine_name_operand (op := .ticks) (isWord_of_all rfl) rfl hx, asmApply_ticks hn]
  refine ⟨fun ds hne hd => hline (isWord_decimal hne hd) (asmNat_decimal hne hd),
    fun cs ds hne h => hline (isWord_hex (map_hexDigit_plain h).2) (asmNat_hex hne h),
    fun x n hn => asmApply_ticks hn, hline (x := ['0']) (n := 0) (isWord_of_all rfl) rfl⟩

/-- Settles O60: the two words of the line, what the numeral reads as, and whether it fits the operand. -/
theorem integerLiteralsHaveTheirValues : Obligations.IntegerLiteralsHaveTheirValues := by
  have hline {x : List Char} {n : Nat} (hx : IsWord x) (hn : asmNat x = some n) :
      assembleLine ("TIMEDBEEP".toList ++ ' ' :: x) =
        if n < 2 ^ 32 then .ok [⟨.host, encode (.timedbeep (BitVec.ofNat 32 n))⟩] else .error .badOperand := by
    rw [assembleLine_name_operand (op := .timedbeep) (isWord_of_all rfl) rfl hx, asmApply_timedbeep hn]
  refine ⟨fun ds hne hd => ?decimal, fun cs ds hne h => ?hex, ?ten⟩
  case decimal =>
    have hn := asmNat_decimal hne hd
    exact ⟨hn, hline (isWord_decimal hne hd) hn⟩
  case hex =>
    have hn := asmNat_hex hne h
    exact ⟨hn, hline (isWord_hex (map_hexDigit_plain h).2) hn⟩
  case ten => exact hline (x := ['1', '0']) (n := 10) (isWord_of_all rfl) rfl

/-- Settles O59: line by line, and the text cut again at its line ends. -/
theorem assemblerReadsEveryInstruction : Obligations.AssemblerReadsEveryInstruction := by
  refine ⟨assembleLine_lineOf, assemble_textOf, fun a b h => ?case, by decide +kernel, fun line comment => ?comment⟩
  case case => rw [asmOp, asmOp, h]
  case comment => rw [assembleLine, assembleLine, lineWords_append_comment]

/-- Settles O58: reading and encoding are inverse, the digits of a pattern spell it, and a decimal number is rounded. -/
theorem floatLiteralsHaveTheirValues : Obligations.FloatLiteralsHaveTheirValues := by
  refine ⟨fun bits => encodeF32_f32, fun neg k => f32_encodeF32 neg, fun neg => ?inf, by decide,
    fun cs ds hlen h => ?pattern, by decide, fun ds fs hds hfs hd => ?decimal, fun ds hne hd => ?whole,
    fun ds fs hne hd => ?negative⟩
  case inf => rw [encodeF32_inf, f32_patternOf (by decide) (by decide)]; rfl
  case pattern => rw [asmFloat_pattern, if_pos hlen, digitsValue_hex h, Option.map_some]
  case decimal =>
    rw [asmFloat_digits _ hds (List.forall_mem_append.1 hd).1]
    exact asmDecimal_point false hds hd
  case whole =>
    have hdecimal := asmFloat_digits [] hne hd
    rw [List.append_nil] at hdecimal
    rw [hdecimal]
    exact asmDecimal_whole false hne hd
  case negative => exact asmDecimal_point true hne hd

end Sys2Proof.Machine
end
